-- ==== Sys2Proof/Word.lean ====
section
/-! DEFINITION. Words and index types of the block (10_state.md R14 to R24, 20_memory.md R29, 30_encoding.md R46). -/

namespace Sys2Proof

/-- A 16-bit register or bus data word (R6, R29). -/
abbrev Word := BitVec 16

/-- A bit-plane byte (R6, R14). -/
abbrev Byte := BitVec 8

/-- A register address of the block's register space: 256 addresses (R29). -/
abbrev Addr := BitVec 8

/-- The levels of the 3 input lines, or 3 flags: bit `i` is line `i` (R21, R24). -/
abbrev Lines := BitVec 3

/-- A transaction word, bit 31 most significant (R46). -/
abbrev TxWord := BitVec 32

/-- A bit-plane index, 0 to 7 (`N_PLANE = 8`, R5). -/
abbrev PlaneIdx := Fin 8

/-- An output channel, 0 to 6 (`N_OUT = 7`, R5). -/
abbrev Channel := Fin 7

/-- An input line, 0 to 2 (`N_IN = 3`, R5). -/
abbrev Line := Fin 3

end Sys2Proof
end

