-- ==== Sys2Proof/Syntax.lean ====
section
/-! DEFINITION. The block's registers by name (20_memory.md R30), its 21 operations (30_encoding.md R53, one constructor
per row of opcode_table.json), and the reasons a transaction word spells none (R54). -/

namespace Sys2Proof

/-- The mapped registers, one constructor per row of the register map that is not "unmapped" (R30). -/
inductive Reg where
  | bp (p : PlaneIdx)
  | tick (c : Channel)
  | dur (i : Line)
  | pend
  | lvl
  | start (i : Line)
  | frc
  | reload
  | out
  | plane
  | pcnt
  | pocr
  deriving DecidableEq, Repr

/-- The operations of the block, in decode order (R53). -/
inductive Instr where
  /-- RD_BP p (R66) -/
  | rdBp (p : PlaneIdx)
  /-- RD_TICK c (R75) -/
  | rdTick (c : Channel)
  /-- RD_DUR i (R87) -/
  | rdDur (i : Line)
  /-- RD_PEND (R88) -/
  | rdPend
  /-- RD_LVL (R90) -/
  | rdLvl
  /-- RD_START i (R91) -/
  | rdStart (i : Line)
  /-- RD_FRC (R78) -/
  | rdFrc
  /-- RD_RELOAD (R79) -/
  | rdReload
  /-- RD_OUT (R68) -/
  | rdOut
  /-- RD_PLANE (R69) -/
  | rdPlane
  /-- RD_PCNT (R70) -/
  | rdPcnt
  /-- RD_POCR (R71) -/
  | rdPocr
  /-- RD_UNMAPPED: a read of an unmapped address (R93) -/
  | rdUnmapped (a : Addr)
  /-- WR_BP p, d (R67) -/
  | wrBp (p : PlaneIdx) (d : Word)
  /-- SUB_TICK c, d (R76) -/
  | subTick (c : Channel) (d : Word)
  /-- CLR_PEND d (R89) -/
  | clrPend (d : Word)
  /-- WR_ERR: a write to an unmapped address or to a read-only register (R94) -/
  | wrErr (a : Addr) (d : Word)
  /-- EV_PCLK: one clock of the PWM counter (R58) -/
  | evPclk
  /-- EV_FRCCLK: one clock of the free-running counter (R72) -/
  | evFrcclk
  /-- EV_EDGE v: the input environment presents the levels `v` (R80) -/
  | evEdge (v : Lines)
  /-- EV_RESET: reset of the block (R92) -/
  | evReset
  deriving DecidableEq, Repr

/-- Why a transaction word is reserved (R54). Where several reasons hold, the decoder names the first in this order. -/
inductive Reserved where
  /-- `K = 0b11` -/
  | kind
  /-- `K = 0b00` and `E != 0` -/
  | readEvent
  /-- `K = 0b00` and `D != 0` -/
  | readData
  /-- `K = 0b01` and `E != 0` -/
  | writeEvent
  /-- `K = 0b10` and a reserved event code (0x00, 0x04 to 0x3E, R51) -/
  | eventCode
  /-- `K = 0b10` and `A != 0` -/
  | eventAddr
  /-- `K = 0b10` and `w[15:3] != 0` -/
  | eventHigh
  /-- `K = 0b10` and `w[2:0] != 0` for an event other than `EV_EDGE` -/
  | eventLevels
  deriving DecidableEq, Repr

end Sys2Proof
end

