-- ==== Sys2Proof/WellFormed.lean ====
section
/-! DEFINITION. Which terms of `Instr` are operations of the block: the two error operations carry an address, which must
be one their opcode-table row admits (30_encoding.md R53 lines 13 and 17). Every other bound is in the operand's type. -/

namespace Sys2Proof

/-- The unmapped addresses, as listed in 20_memory.md R31. -/
def Addr.unmapped (a : Addr) : Bool :=
  a = 0x0F#8 || a = 0x13#8 || a = 0x16#8 || a = 0x17#8 || a = 0x1B#8 || a = 0x1E#8 || a = 0x1F#8 ||
    (decide (0x24 ≤ a.toNat) && decide (a.toNat ≤ 0xFF))

/-- The addresses a write acts on: 0x00 to 0x0E and 0x14 (43_system.md R94). -/
def Addr.writable (a : Addr) : Bool :=
  decide (a.toNat ≤ 0x0E) || a = 0x14#8

/-- A term is well-formed if the address of an error operation is one for which that operation is the decoding. -/
def Instr.wf : Instr → Bool
  | .rdUnmapped a => Addr.unmapped a
  | .wrErr a _ => !Addr.writable a
  | .rdBp _ | .rdTick _ | .rdDur _ | .rdPend | .rdLvl | .rdStart _ | .rdFrc | .rdReload | .rdOut | .rdPlane
  | .rdPcnt | .rdPocr | .wrBp _ _ | .subTick _ _ | .clrPend _ | .evPclk | .evFrcclk | .evEdge _ | .evReset => true

end Sys2Proof
end

