-- ==== Sys2Proof/Decode.lean ====
section
/-! DEFINITION. Decoding and encoding of transaction words (30_encoding.md R46 to R54), and the opcode table as rows of
mask and pattern (opcode_table.json). The decoder works on the fields of R47; the table is written separately, so that the
agreement of the two says something. -/

namespace Sys2Proof

/-! ### Fields of the transaction word (R47) -/

/-- `K = w[31:30]`. -/
def fieldK (w : TxWord) : BitVec 2 := w.extractLsb' 30 2

/-- `E = w[29:24]`. -/
def fieldE (w : TxWord) : BitVec 6 := w.extractLsb' 24 6

/-- `A = w[23:16]`. -/
def fieldA (w : TxWord) : Addr := w.extractLsb' 16 8

/-- `D = w[15:0]`. -/
def fieldD (w : TxWord) : Word := w.extractLsb' 0 16

/-- `V = w[2:0]`. -/
def fieldV (w : TxWord) : Lines := w.extractLsb' 0 3

/-- `w[15:3]`, zero in format V (R50). -/
def fieldHigh (w : TxWord) : BitVec 13 := w.extractLsb' 3 13

/-! ### Operand assembly (R52) -/

/-- `p = A[2:0]`, for `A` in 0x00 to 0x07. -/
def planeOperand (a : Addr) : PlaneIdx := ⟨a.toNat % 8, by omega⟩

/-- `c = A[2:0]`, for `A` in 0x08 to 0x0E. -/
def channelOperand (a : Addr) (h : a.toNat < 0x0F) (h8 : ¬ a.toNat < 0x08) : Channel := ⟨a.toNat % 8, by omega⟩

/-- `i = A[1:0]`, for `A` in a group of three whose first address is a multiple of 4. -/
def lineOperand (a : Addr) (base : Nat) (hb : base % 4 = 0) (h : base ≤ a.toNat ∧ a.toNat < base + 3) : Line :=
  ⟨a.toNat % 4, by omega⟩

/-- The register at an address of the register map, none where the map has "unmapped" (20_memory.md R30, R31). -/
def regAt (a : Addr) : Option Reg :=
  if h8 : a.toNat < 0x08 then some (.bp (planeOperand a))
  else if h : a.toNat < 0x0F then some (.tick (channelOperand a h h8))
  else if h : 0x10 ≤ a.toNat ∧ a.toNat < 0x13 then some (.dur (lineOperand a 0x10 (by decide) h))
  else if a = 0x14#8 then some .pend
  else if a = 0x15#8 then some .lvl
  else if h : 0x18 ≤ a.toNat ∧ a.toNat < 0x1B then some (.start (lineOperand a 0x18 (by decide) h))
  else if a = 0x1C#8 then some .frc
  else if a = 0x1D#8 then some .reload
  else if a = 0x20#8 then some .out
  else if a = 0x21#8 then some .plane
  else if a = 0x22#8 then some .pcnt
  else if a = 0x23#8 then some .pocr
  else none

/-! ### Decoding (R53, R54) -/

/-- The read of a register (R53 lines 1 to 12). -/
def readOf : Reg → Instr
  | .bp p => .rdBp p
  | .tick c => .rdTick c
  | .dur i => .rdDur i
  | .pend => .rdPend
  | .lvl => .rdLvl
  | .start i => .rdStart i
  | .frc => .rdFrc
  | .reload => .rdReload
  | .out => .rdOut
  | .plane => .rdPlane
  | .pcnt => .rdPcnt
  | .pocr => .rdPocr

/-- A read of address `a` (R53 lines 1 to 13). -/
def decodeRead (a : Addr) : Instr :=
  match regAt a with
  | some r => readOf r
  | none => .rdUnmapped a

/-- A write of `d` to address `a` (R53 lines 14 to 17): read-only registers and unmapped addresses alike are `WR_ERR`. -/
def decodeWrite (a : Addr) (d : Word) : Instr :=
  match regAt a with
  | some (.bp p) => .wrBp p d
  | some (.tick c) => .subTick c d
  | some .pend => .clrPend d
  | some (.dur _) | some .lvl | some (.start _) | some .frc | some .reload | some .out | some .plane | some .pcnt
  | some .pocr | none => .wrErr a d

/-- The event codes that are not reserved (R51). -/
def eventCodeKnown (e : BitVec 6) : Bool :=
  e = 0x01#6 || e = 0x02#6 || e = 0x03#6 || e = 0x3F#6

/-- A word of kind 0b10 (R53 lines 18 to 21, R54). -/
def decodeEvent (w : TxWord) : Except Reserved Instr :=
  if eventCodeKnown (fieldE w) = false then .error .eventCode
  else if fieldA w ≠ 0#8 then .error .eventAddr
  else if fieldHigh w ≠ 0#13 then .error .eventHigh
  else if fieldE w = 0x03#6 then .ok (.evEdge (fieldV w))
  else if fieldV w ≠ 0#3 then .error .eventLevels
  else if fieldE w = 0x01#6 then .ok .evPclk
  else if fieldE w = 0x02#6 then .ok .evFrcclk
  else .ok .evReset

/-- The operation a transaction word spells, or why it is reserved (R53, R54): total over 32-bit words. -/
def decode (w : TxWord) : Except Reserved Instr :=
  if fieldK w = 0b00#2 then
    if fieldE w ≠ 0#6 then .error .readEvent
    else if fieldD w ≠ 0#16 then .error .readData
    else .ok (decodeRead (fieldA w))
  else if fieldK w = 0b01#2 then
    if fieldE w ≠ 0#6 then .error .writeEvent
    else .ok (decodeWrite (fieldA w) (fieldD w))
  else if fieldK w = 0b10#2 then decodeEvent w
  else .error .kind

/-- What the decoder reads from an operation of `nbits` bits with value `w`, numbered as the opcode table numbers them (one
32-bit word, bit 0 least significant, R9 and R46). -/
def decodeTableWord (nbits w : Nat) : Option Instr :=
  if nbits ≤ 32 then
    match decode (BitVec.ofNat 32 (w % 2 ^ nbits)) with
    | .ok i => some i
    | .error _ => none
  else none

/-! ### Encoding (R48 to R51, R56) -/

/-- Format R: `00 000000 AAAAAAAA 0000000000000000` (R48). -/
def formatR (a : Addr) : TxWord := 0b00#2 ++ 0#6 ++ a ++ 0#16

/-- Format W: `01 000000 AAAAAAAA DDDDDDDDDDDDDDDD` (R49). -/
def formatW (a : Addr) (d : Word) : TxWord := 0b01#2 ++ 0#6 ++ a ++ d

/-- Format V: `10 EEEEEE 00000000 0000000000000VVV` (R50). -/
def formatV (e : BitVec 6) (v : Lines) : TxWord := 0b10#2 ++ e ++ 0#8 ++ (0#13 ++ v : Word)

/-- The address column of the register map (R30). -/
def Reg.addr : Reg → Addr
  | .bp p => 0x00#8 + BitVec.ofNat 8 p.val
  | .tick c => 0x08#8 + BitVec.ofNat 8 c.val
  | .dur i => 0x10#8 + BitVec.ofNat 8 i.val
  | .pend => 0x14#8
  | .lvl => 0x15#8
  | .start i => 0x18#8 + BitVec.ofNat 8 i.val
  | .frc => 0x1C#8
  | .reload => 0x1D#8
  | .out => 0x20#8
  | .plane => 0x21#8
  | .pcnt => 0x22#8
  | .pocr => 0x23#8

/-- The transaction word of an operation (R48 to R51; the word column of R56). -/
def encode : Instr → TxWord
  | .rdBp p => formatR (Reg.bp p).addr
  | .rdTick c => formatR (Reg.tick c).addr
  | .rdDur i => formatR (Reg.dur i).addr
  | .rdPend => formatR Reg.pend.addr
  | .rdLvl => formatR Reg.lvl.addr
  | .rdStart i => formatR (Reg.start i).addr
  | .rdFrc => formatR Reg.frc.addr
  | .rdReload => formatR Reg.reload.addr
  | .rdOut => formatR Reg.out.addr
  | .rdPlane => formatR Reg.plane.addr
  | .rdPcnt => formatR Reg.pcnt.addr
  | .rdPocr => formatR Reg.pocr.addr
  | .rdUnmapped a => formatR a
  | .wrBp p d => formatW (Reg.bp p).addr d
  | .subTick c d => formatW (Reg.tick c).addr d
  | .clrPend d => formatW Reg.pend.addr d
  | .wrErr a d => formatW a d
  | .evPclk => formatV 0x01#6 0#3
  | .evFrcclk => formatV 0x02#6 0#3
  | .evEdge v => formatV 0x03#6 v
  | .evReset => formatV 0x3F#6 0#3

/-! ### The opcode table -/

/-- The mnemonic of an operation, as opcode_table.json spells it. -/
def Instr.mnemonic : Instr → String
  | .rdBp _ => "RD_BP"
  | .rdTick _ => "RD_TICK"
  | .rdDur _ => "RD_DUR"
  | .rdPend => "RD_PEND"
  | .rdLvl => "RD_LVL"
  | .rdStart _ => "RD_START"
  | .rdFrc => "RD_FRC"
  | .rdReload => "RD_RELOAD"
  | .rdOut => "RD_OUT"
  | .rdPlane => "RD_PLANE"
  | .rdPcnt => "RD_PCNT"
  | .rdPocr => "RD_POCR"
  | .rdUnmapped _ => "RD_UNMAPPED"
  | .wrBp _ _ => "WR_BP"
  | .subTick _ _ => "SUB_TICK"
  | .clrPend _ => "CLR_PEND"
  | .wrErr _ _ => "WR_ERR"
  | .evPclk => "EV_PCLK"
  | .evFrcclk => "EV_FRCCLK"
  | .evEdge _ => "EV_EDGE"
  | .evReset => "EV_RESET"

/-- One row of opcode_table.json: the bits `mask` selects equal `pat`, and the row's "constraint" holds of `A`
(`excluded`: the values of `A` the constraint shuts out of the bits the mask leaves free). -/
structure OpcodeRow where
  mnemonic : String
  mask : TxWord
  pat : TxWord
  excluded : List Addr

/-- The table's rows in decode order (R53). -/
def opcodeRows : List OpcodeRow :=
  [⟨"RD_BP", 0xFFF8FFFF, 0x00000000, []⟩, ⟨"RD_TICK", 0xFFF8FFFF, 0x00080000, [0x0F]⟩,
   ⟨"RD_DUR", 0xFFFCFFFF, 0x00100000, [0x13]⟩, ⟨"RD_PEND", 0xFFFFFFFF, 0x00140000, []⟩,
   ⟨"RD_LVL", 0xFFFFFFFF, 0x00150000, []⟩, ⟨"RD_START", 0xFFFCFFFF, 0x00180000, [0x1B]⟩,
   ⟨"RD_FRC", 0xFFFFFFFF, 0x001C0000, []⟩, ⟨"RD_RELOAD", 0xFFFFFFFF, 0x001D0000, []⟩,
   ⟨"RD_OUT", 0xFFFFFFFF, 0x00200000, []⟩, ⟨"RD_PLANE", 0xFFFFFFFF, 0x00210000, []⟩,
   ⟨"RD_PCNT", 0xFFFFFFFF, 0x00220000, []⟩, ⟨"RD_POCR", 0xFFFFFFFF, 0x00230000, []⟩,
   ⟨"RD_UNMAPPED", 0xFF00FFFF, 0x00000000, []⟩] ++
  [⟨"WR_BP", 0xFFF80000, 0x40000000, []⟩, ⟨"SUB_TICK", 0xFFF80000, 0x40080000, [0x0F]⟩,
   ⟨"CLR_PEND", 0xFFFF0000, 0x40140000, []⟩, ⟨"WR_ERR", 0xFF000000, 0x40000000, []⟩,
   ⟨"EV_PCLK", 0xFFFFFFFF, 0x81000000, []⟩, ⟨"EV_FRCCLK", 0xFFFFFFFF, 0x82000000, []⟩,
   ⟨"EV_EDGE", 0xFFFFFFF8, 0x83000000, []⟩, ⟨"EV_RESET", 0xFFFFFFFF, 0xBF000000, []⟩]

/-- Whether a row matches a word. -/
def OpcodeRow.holds (r : OpcodeRow) (w : TxWord) : Bool :=
  (w &&& r.mask) == r.pat && !r.excluded.contains (fieldA w)

/-- The mnemonic of the first row that matches, none for a reserved word (R53). -/
def firstMatch (w : TxWord) : Option String :=
  (opcodeRows.find? (fun r => r.holds w)).map (·.mnemonic)

end Sys2Proof
end

