-- ==== Sys2Proof/Config.lean ====
section
/-! DEFINITION. The open parameters of 00_scope.md R7 (92_eei_decisions.md D27): constants without a value, so that a
claim holds whatever they are. -/

namespace Sys2Proof.Config

/-- `FRC_RELOAD`: the value the free-running counter loads when it passes 0xFFFF (R7, R72). The value the `RELOAD`
register has in `State.reset`; log entry 6. -/
opaque frcReload : Word

/-- `F_FRC`, the rate of the free-running-counter clock: no rule reads it (R7, R118); log entry 7. -/
opaque fFrc : Nat

/-- `F_PCLK`, the rate of the PWM clock: no rule reads it (R7, R118); log entry 7. -/
opaque fPclk : Nat

/-- `BLOCK_BASE`, where the host's platform places the register space: no rule reads it (R7, R29); log entry 7. -/
opaque blockBase : Nat

end Sys2Proof.Config
end

