-- ==== Sys2Proof/Machine/State.lean ====
section
/-! DEFINITION. The state of the block (10_state.md R13 to R24) with its RELOAD register (20_memory.md R30), the model's
interface to the agents (log entries 1 and 3), the reasons a step can stop, and the state after reset (R108). -/

namespace Sys2Proof.Machine

/-- The two bus responses (R29). -/
inductive BusStatus where
  | ok
  | err
  deriving DecidableEq, Repr

/-- The block's answer to one host transaction (R29, R97): the response, and the 16-bit data word of a read. A write
carries no data. -/
structure BusResponse where
  status : BusStatus
  data : Option Word
  deriving DecidableEq, Repr

/-- The whole state: the tuple of R13, the RELOAD register (constant, log entry 6), and two fields of the model's own,
`pending` and `resp`, which are the block's interface and no state of it (log entries 1 and 3). -/
structure State where
  /-- `BP[0..7]`, the bit-plane buffer (R14) -/
  bp : Vector Byte 8
  /-- `OUT`, the 7 output lines (R15) -/
  out : BitVec 7
  /-- `PCNT`, the PWM counter (R16) -/
  pcnt : BitVec 8
  /-- `POCR`, the PWM compare register (R17) -/
  pocr : BitVec 8
  /-- `PLANE`, the plane the next compare event outputs (R18) -/
  plane : BitVec 3
  /-- `TICK[0..6]`, the tick counters (R19) -/
  tick : Vector Word 7
  /-- `FRC`, the free-running counter (R20) -/
  frc : Word
  /-- `LVL`, the input levels last sampled (R21) -/
  lvl : Lines
  /-- `START[0..2]`, the start time of the pulse on each line (R22) -/
  start : Vector Word 3
  /-- `DUR[0..2]`, the last duration measured on each line (R23) -/
  dur : Vector Word 3
  /-- `PEND`, the pending flags (R24) -/
  pend : Lines
  /-- `RELOAD`, the constant `FRC_RELOAD` as the host reads it (R30, R79) -/
  reload : Word
  /-- The transaction words the agents will present, the next one first (R46, R41). The model's own field. -/
  pending : List TxWord
  /-- The bus response given in the step just taken, none if it was no host transaction. The model's own field. -/
  resp : Option BusResponse
  deriving DecidableEq, Repr

/-- Faults. There is none: the block raises no exception (60_exceptions.md R96) and has no stuck state (R12). -/
inductive Fault
  deriving DecidableEq, Repr

/-- Reasons the model gives a step no meaning. -/
inductive Refusal where
  /-- Raised by an arm of `exec` for an operation without a meaning. No arm raises it. Safe: the run stops. -/
  | notModelled (mnemonic : String)
  /-- Raised by `step` for a reserved word (R12, R54: outcome REFUSED): the reason and the word are the record of the
  refusal. Safe: the run stops where the spec gives the word no meaning; log entry 5. -/
  | reservedWord (why : Reserved) (w : TxWord)
  deriving DecidableEq, Repr

/-- The state right after reset (R108; the reset values of R14 to R24), with no transaction word waiting and no response
given (log entries 1, 3 and 9). -/
def State.reset : State where
  bp := Vector.replicate 8 0x00#8
  out := 0b0000000#7
  pcnt := 0x00#8
  pocr := 0x02#8
  plane := 1#3
  tick := Vector.replicate 7 0x0000#16
  frc := Config.frcReload
  lvl := 0b000#3
  start := Vector.replicate 3 0x0000#16
  dur := Vector.replicate 3 0x0000#16
  pend := 0b000#3
  reload := Config.frcReload
  pending := []
  resp := none

end Sys2Proof.Machine
end

