-- ==== Sys2Proof/Machine/Ops.lean ====
section
/-! DEFINITION. The named operations of the block: one update per register, the transaction interface, and the actions the
events share (plane events, tick, edges, reset). There is no trap entry and no return (60_exceptions.md R101): the only
error outcome is the bus response ERR (R97), `respondErr` here. -/

namespace Sys2Proof.Machine

/-! ### One update per register -/

namespace State

/-- `BP[p] <- b` -/
def setBp (s : State) (p : PlaneIdx) (b : Byte) : State := { s with bp := s.bp.set p.val b p.isLt }

/-- `OUT <- v` -/
def setOut (s : State) (v : BitVec 7) : State := { s with out := v }

/-- `PCNT <- v` -/
def setPcnt (s : State) (v : BitVec 8) : State := { s with pcnt := v }

/-- `POCR <- v` -/
def setPocr (s : State) (v : BitVec 8) : State := { s with pocr := v }

/-- `PLANE <- v` -/
def setPlane (s : State) (v : BitVec 3) : State := { s with plane := v }

/-- `TICK[c] <- v` -/
def setTick (s : State) (c : Channel) (v : Word) : State := { s with tick := s.tick.set c.val v c.isLt }

/-- Every `TICK[c]` at once. -/
def setTicks (s : State) (v : Vector Word 7) : State := { s with tick := v }

/-- `FRC <- v` -/
def setFrc (s : State) (v : Word) : State := { s with frc := v }

/-- `LVL <- v` -/
def setLvl (s : State) (v : Lines) : State := { s with lvl := v }

/-- `START[i] <- v` -/
def setStart (s : State) (i : Line) (v : Word) : State := { s with start := s.start.set i.val v i.isLt }

/-- `DUR[i] <- v` -/
def setDur (s : State) (i : Line) (v : Word) : State := { s with dur := s.dur.set i.val v i.isLt }

/-- `PEND <- v` -/
def setPend (s : State) (v : Lines) : State := { s with pend := v }

/-- The words still to be presented. -/
def setPending (s : State) (ws : List TxWord) : State := { s with pending := ws }

/-- The response of the step just taken. -/
def setResp (s : State) (r : Option BusResponse) : State := { s with resp := r }

end State

/-! ### The transaction interface -/

/-- Take the next transaction word, if one is presented (R46): "A model's step … consumes one such word". -/
def takeWord (s : State) : Option (TxWord × State) :=
  match s.pending with
  | [] => none
  | w :: ws => some (w, s.setPending ws)

/-- No agent takes a step: every register keeps its value (60_exceptions.md R107), no response is given; log entry 2. -/
def idle (s : State) : Host.Outcome State Fault Refusal := .next (s.setResp none)

/-- A hardware event ends: its writes are `s`, and it answers nothing on the bus (R12, R28). -/
def eventDone (s : State) : Host.Outcome State Fault Refusal := .next (s.setResp none)

/-- `respond OK; data <- d`: a read ends (R29, R33). -/
def respondData (d : Word) (s : State) : Host.Outcome State Fault Refusal := .next (s.setResp (some ⟨.ok, some d⟩))

/-- `respond OK`: a write ends, its effect is `s` (R29). -/
def respondOk (s : State) : Host.Outcome State Fault Refusal := .next (s.setResp (some ⟨.ok, none⟩))

/-- `respond ERR`, with the data word a read gets: no register changes (R97); log entry 4. -/
def respondErr (d : Option Word) (s : State) : Host.Outcome State Fault Refusal := .next (s.setResp (some ⟨.err, d⟩))

/-! ### Arithmetic primitives (00_scope.md R10) -/

/-- `sat_sub(a, b) = a - b if a >= b else 0`. -/
def satSub (a b : Word) : Word := if b ≤ a then a - b else 0#16

/-- `W = 65536 - FRC_RELOAD`, the wrap period in FRC clocks (R7). -/
def wrapPeriod (reload : Word) : Nat := 65536 - reload.toNat

/-! ### Plane events (40_pwm.md R58 to R60) -/

/-- `BP[p][6:0]`: the bits of a plane byte that reach the output lines (R15). -/
def outLines (b : Byte) : BitVec 7 := b.extractLsb' 0 7

/-- `PLANE` as the index of a bit-plane. -/
def planeIndex (p : BitVec 3) : PlaneIdx := ⟨p.toNat, p.isLt⟩

/-- `(2^(p+1)) mod 256`: the compare value after plane `p` (R60). -/
def nextWeight (p : BitVec 3) : BitVec 8 := BitVec.ofNat 8 (2 ^ (p.toNat + 1) % 256)

/-- The overflow plane event (R59). -/
def overflowEvent (s : State) : State :=
  ((s.setOut (outLines s.bp[(0 : PlaneIdx)])).setPocr 0x02#8).setPlane 1#3

/-- The compare plane event (R60). -/
def compareEvent (s : State) : State :=
  ((s.setOut (outLines s.bp[planeIndex s.plane])).setPocr (nextWeight s.plane)).setPlane (s.plane + 1#3)

/-- One clock of the PWM counter (R58). -/
def pwmClock (s : State) : State :=
  let n := s.pcnt + 1#8
  if n = 0#8 then (overflowEvent s).setPcnt n
  else if n = s.pocr then (compareEvent s).setPcnt n
  else s.setPcnt n

/-! ### The free-running counter and the tick (41_tick.md R72, R73) -/

/-- The tick: all seven counters advance by one modulo 2^16 (R73). -/
def tickAll (s : State) : State := s.setTicks (Vector.ofFn fun c : Channel => s.tick[c] + 1#16)

/-- One clock of the free-running counter (R72). -/
def frcClock (s : State) : State :=
  if s.frc = 0xFFFF#16 then (tickAll s).setFrc s.reload
  else s.setFrc (s.frc + 1#16)

/-! ### Edges (42_capture.md R80 to R82) -/

/-- The elapsed time of a pulse: the wrap-corrected difference of two time stamps (R82). -/
def elapsed (reload start now : Word) : Word :=
  let raw := now - start
  if start ≤ now then raw else raw - reload

/-- Set the pending flag of line `i` (R82, R24). -/
def raisePend (p : Lines) (i : Line) : Lines := p ||| (1#3 <<< i.val)

/-- Rising edge of line `i` (R81). -/
def risingEdge (i : Line) (now : Word) (s : State) : State := s.setStart i now

/-- Falling edge of line `i` (R82). -/
def fallingEdge (i : Line) (now : Word) (s : State) : State :=
  (s.setDur i (elapsed s.reload s.start[i] now)).setPend (raisePend s.pend i)

/-- The action of one line: `ch = v xor LVL` says whether it changed, `v` which way (R80). -/
def lineEvent (ch v : Lines) (now : Word) (s : State) (i : Line) : State :=
  if ch.getLsbD i && v.getLsbD i then risingEdge i now s
  else if ch.getLsbD i && !v.getLsbD i then fallingEdge i now s
  else s

/-- The input environment presents the levels `v` (R80). -/
def edgeEvent (v : Lines) (s : State) : State :=
  ([0, 1, 2].foldl (lineEvent (v ^^^ s.lvl) v s.frc) s).setLvl v

/-! ### Reset (43_system.md R92) -/

/-- Every register to its reset value; the constant RELOAD and the words not yet presented stay. -/
def resetBlock (s : State) : State where
  bp := Vector.replicate 8 0x00#8
  out := 0b0000000#7
  pcnt := 0x00#8
  pocr := 0x02#8
  plane := 1#3
  tick := Vector.replicate 7 0x0000#16
  frc := s.reload
  lvl := 0b000#3
  start := Vector.replicate 3 0x0000#16
  dur := Vector.replicate 3 0x0000#16
  pend := 0b000#3
  reload := s.reload
  pending := s.pending
  resp := s.resp

end Sys2Proof.Machine
end

