-- ==== Sys2Proof/Machine/Flags.lean ====
section
/-! DEFINITION. The block's only flags, `PEND` (10_state.md R24): how the host clears them. A falling edge sets one by
`raisePend` in Ops.lean (42_capture.md R82). -/

namespace Sys2Proof.Machine

/-- `d[2:0]`: the bits a write to PEND uses (20_memory.md R34). -/
def pendMask (d : Word) : Lines := d.extractLsb' 0 3

/-- `PEND and not d[2:0]`: write one to clear (R89). -/
def clearPend (p : Lines) (d : Word) : Lines := p &&& ~~~(pendMask d)

end Sys2Proof.Machine
end

