-- ==== Sys2Proof/Machine/Operands.lean ====
section
/-! DEFINITION. Operand forms: what a host read of each register returns (20_memory.md R30, R33) and which bits of the
write data a write uses (R34). -/

namespace Sys2Proof.Machine

/-- `zext_16(v)` (R9, R33). -/
def zext16 {n : Nat} (v : BitVec n) : Word := v.setWidth 16

/-- `d[7:0]`: the bits a write to a bit-plane uses (R34). -/
def planeData (d : Word) : Byte := d.extractLsb' 0 8

/-- The "read returns" column of the register map (R30). -/
def peek (s : State) : Reg → Word
  | .bp p => zext16 s.bp[p]
  | .tick c => s.tick[c]
  | .dur i => s.dur[i]
  | .pend => zext16 s.pend
  | .lvl => zext16 s.lvl
  | .start i => s.start[i]
  | .frc => s.frc
  | .reload => s.reload
  | .out => zext16 s.out
  | .plane => zext16 s.plane
  | .pcnt => zext16 s.pcnt
  | .pocr => zext16 s.pocr

/-- A host read of a mapped register: `respond OK; data <- …`, with no side effect (R35). -/
def readReg (r : Reg) (s : State) : Host.Outcome State Fault Refusal := respondData (peek s r) s

end Sys2Proof.Machine
end

