-- ==== Sys2Proof/Machine/Capture.lean ====
section
/-! DEFINITION. Meanings of the pulse capture family (42_capture.md). -/

namespace Sys2Proof.Machine

/-- EV_EDGE v (R80), with its rising (R81) and falling (R82) edges. -/
def execEvEdge (v : Lines) (s : State) : Host.Outcome State Fault Refusal := eventDone (edgeEvent v s)

/-- RD_DUR i (R87): the pending flag stays. -/
def execRdDur (i : Line) (s : State) : Host.Outcome State Fault Refusal := readReg (.dur i) s

/-- RD_PEND (R88). -/
def execRdPend (s : State) : Host.Outcome State Fault Refusal := readReg .pend s

/-- CLR_PEND d (R89). -/
def execClrPend (d : Word) (s : State) : Host.Outcome State Fault Refusal :=
  respondOk (s.setPend (clearPend s.pend d))

/-- RD_LVL (R90): the levels as of the last EV_EDGE. -/
def execRdLvl (s : State) : Host.Outcome State Fault Refusal := readReg .lvl s

/-- RD_START i (R91). -/
def execRdStart (i : Line) (s : State) : Host.Outcome State Fault Refusal := readReg (.start i) s

end Sys2Proof.Machine
end

