-- ==== Sys2Proof/Machine/Pwm.lean ====
section
/-! DEFINITION. Meanings of the PWM frame scheduler family (40_pwm.md). -/

namespace Sys2Proof.Machine

/-- EV_PCLK (R58): the counter and its plane event in one atomic step. -/
def execEvPclk (s : State) : Host.Outcome State Fault Refusal := eventDone (pwmClock s)

/-- RD_BP p (R66). -/
def execRdBp (p : PlaneIdx) (s : State) : Host.Outcome State Fault Refusal := readReg (.bp p) s

/-- WR_BP p, d (R67). -/
def execWrBp (p : PlaneIdx) (d : Word) (s : State) : Host.Outcome State Fault Refusal :=
  respondOk (s.setBp p (planeData d))

/-- RD_OUT (R68). -/
def execRdOut (s : State) : Host.Outcome State Fault Refusal := readReg .out s

/-- RD_PLANE (R69). -/
def execRdPlane (s : State) : Host.Outcome State Fault Refusal := readReg .plane s

/-- RD_PCNT (R70). -/
def execRdPcnt (s : State) : Host.Outcome State Fault Refusal := readReg .pcnt s

/-- RD_POCR (R71). -/
def execRdPocr (s : State) : Host.Outcome State Fault Refusal := readReg .pocr s

end Sys2Proof.Machine
end

