-- ==== Sys2Proof/Machine/System.lean ====
section
/-! DEFINITION. Meanings of the system operations (43_system.md). -/

namespace Sys2Proof.Machine

/-- EV_RESET (R92). -/
def execEvReset (s : State) : Host.Outcome State Fault Refusal := eventDone (resetBlock s)

/-- RD_UNMAPPED (R93): `respond ERR; data <- 0x0000`, nothing recorded about the address. -/
def execRdUnmapped (_a : Addr) (s : State) : Host.Outcome State Fault Refusal := respondErr (some 0x0000#16) s

/-- WR_ERR (R94): `respond ERR`, address and data ignored. -/
def execWrErr (_a : Addr) (_d : Word) (s : State) : Host.Outcome State Fault Refusal := respondErr none s

end Sys2Proof.Machine
end

