-- ==== Sys2Proof/Machine/Tick.lean ====
section
/-! DEFINITION. Meanings of the tick timer family (41_tick.md). -/

namespace Sys2Proof.Machine

/-- EV_FRCCLK (R72), with its tick (R73). -/
def execEvFrcclk (s : State) : Host.Outcome State Fault Refusal := eventDone (frcClock s)

/-- RD_TICK c (R75). -/
def execRdTick (c : Channel) (s : State) : Host.Outcome State Fault Refusal := readReg (.tick c) s

/-- SUB_TICK c, d (R76): the clamped subtraction on the live value, one atomic step. -/
def execSubTick (c : Channel) (d : Word) (s : State) : Host.Outcome State Fault Refusal :=
  respondOk (s.setTick c (satSub s.tick[c] d))

/-- RD_FRC (R78). -/
def execRdFrc (s : State) : Host.Outcome State Fault Refusal := readReg .frc s

/-- RD_RELOAD (R79). -/
def execRdReload (s : State) : Host.Outcome State Fault Refusal := readReg .reload s

end Sys2Proof.Machine
end

