-- ==== Sys2Proof/Machine/Dispatch.lean ====
section
/-! DEFINITION. The meaning of every operation: one arm per constructor of Instr. -/

namespace Sys2Proof.Machine

def exec (i : Instr) (s : State) : Host.Outcome State Fault Refusal :=
  match i with
  | .rdBp p => Sys2Proof.Machine.execRdBp p s
  | .rdTick c => Sys2Proof.Machine.execRdTick c s
  | .rdDur j => Sys2Proof.Machine.execRdDur j s
  | .rdPend => Sys2Proof.Machine.execRdPend s
  | .rdLvl => Sys2Proof.Machine.execRdLvl s
  | .rdStart j => Sys2Proof.Machine.execRdStart j s
  | .rdFrc => Sys2Proof.Machine.execRdFrc s
  | .rdReload => Sys2Proof.Machine.execRdReload s
  | .rdOut => Sys2Proof.Machine.execRdOut s
  | .rdPlane => Sys2Proof.Machine.execRdPlane s
  | .rdPcnt => Sys2Proof.Machine.execRdPcnt s
  | .rdPocr => Sys2Proof.Machine.execRdPocr s
  | .rdUnmapped a => Sys2Proof.Machine.execRdUnmapped a s
  | .wrBp p d => Sys2Proof.Machine.execWrBp p d s
  | .subTick c d => Sys2Proof.Machine.execSubTick c d s
  | .clrPend d => Sys2Proof.Machine.execClrPend d s
  | .wrErr a d => Sys2Proof.Machine.execWrErr a d s
  | .evPclk => Sys2Proof.Machine.execEvPclk s
  | .evFrcclk => Sys2Proof.Machine.execEvFrcclk s
  | .evEdge v => Sys2Proof.Machine.execEvEdge v s
  | .evReset => Sys2Proof.Machine.execEvReset s

end Sys2Proof.Machine
end

