-- ==== Sys2Proof/Machine/Step.lean ====
section
/-! DEFINITION. One step of the machine (00_scope.md R12, 30_encoding.md R46): the next transaction word is taken, decoded
and executed as one atomic step (20_memory.md R39); a reserved word is refused (R54). -/

namespace Sys2Proof.Machine

/-- One step: the agent whose word comes next takes its step. -/
def step (s : State) : Host.Outcome State Fault Refusal :=
  match takeWord s with
  | none => idle s
  | some (w, t) =>
    match decode w with
    | .ok i => exec i t
    | .error why => .refused (.reservedWord why w)

/-- `s` with the transaction word of value `w` (its bits above `nbits` zero) as the next one `step` takes, in place of the
word that was next; log entry 9. -/
def State.withFetchWord (s : State) (nbits w : Nat) : State :=
  s.setPending (BitVec.ofNat 32 (w % 2 ^ nbits) :: s.pending.tail)

end Sys2Proof.Machine
end

