-- ==== Sys2Proof/Machine/HostProgram.lean ====
section
/-! DEFINITION. The model of a host program that 60_exceptions.md R97 asks for: it "should treat an `ERR` as a fault of that
program and never clear it". The block itself goes on after an ERR (00_scope.md R12), and `exec` and `step` are the block's
steps; here are the same steps as a host program takes them, with the ERR a fault that ends its run; log entry 14. -/

namespace Sys2Proof.Machine

/-- Why a host program stops. -/
inductive HostFault where
  /-- Raised by `hostSees` where the bus answered ERR (R93, R94): `t` is the state the block is left in, the response with
  it. Safe: a run that has this fault has no later step, so nothing clears it. -/
  | errResponse (t : State)
  deriving DecidableEq, Repr

/-- Whether the bus answered ERR in the step that left this state. -/
def State.answeredErr (s : State) : Bool :=
  match s.resp with
  | some ⟨.err, _⟩ => true
  | some ⟨.ok, _⟩ => false
  | none => false

/-- What a host program makes of a step of the block: a state with the response ERR is its fault, all else is as it is; a
refused word stays refused, for it "is not an error of the block but a refused model input" (R97). -/
def hostSees : Host.Outcome State Fault Refusal → Host.Outcome State HostFault Refusal
  | .next t => if t.answeredErr then .fault (.errResponse t) else .next t
  | .fault f => nomatch f
  | .refused r => .refused r

/-- An operation as a host program takes it. -/
def hostExec (i : Instr) (s : State) : Host.Outcome State HostFault Refusal := hostSees (exec i s)

/-- A step as a host program takes it. -/
def hostStep (s : State) : Host.Outcome State HostFault Refusal := hostSees (step s)

/-- The block with a host program that takes ERR for a fault: `hostCore.run` ends at the first ERR. -/
def hostCore : Host.Core where
  State := State
  Fault := HostFault
  Refusal := Refusal
  step := hostStep
  reset := State.reset

end Sys2Proof.Machine
end

