-- ==== Sys2Proof/Machine/Pseudo.lean ====
section
/-! DEFINITION. The pseudo-operations of 30_encoding.md R57 and their expansions. None is an operation of the block: each
expands to operations of Instr, `wrchan` and `consume` with operations that depend on what the host has read. -/

namespace Sys2Proof.Machine

/-- What a host (or a test bench) presents to the block: operations one after another, a later one depending on the data
word an earlier read returned. -/
inductive Script where
  /-- the end, with what the host learnt -/
  | done (result : Option Word)
  /-- present `i`, then go on -/
  | emit (i : Instr) (rest : Script)
  /-- present the read `i`, then go on with the data word it returned -/
  | ask (i : Instr) (rest : Word → Script)

/-- The pseudo-operations (R57). -/
inductive Pseudo where
  | pclk (n : Nat)
  | frame
  | frcclk (n : Nat)
  | wrplanes (b : Vector Word 8)
  | wrchan (c : Channel) (b : Byte)
  | consume (i : Line)
  deriving DecidableEq, Repr

/-- Present a list of operations, then go on. -/
def Script.emitAll : List Instr → Script → Script
  | [], k => k
  | i :: is, k => .emit i (Script.emitAll is k)

/-- `(x and not 2^c) or (b[p] * 2^c)`: the plane byte `x` with bit `c` replaced by bit `p` of `b` (R57). -/
def withBit (x : Word) (c : Channel) (b : Byte) (p : PlaneIdx) : Word :=
  (x &&& ~~~(1#16 <<< c.val)) ||| (if b.getLsbD p then 1#16 <<< c.val else 0#16)

/-- `rd BPp` returning `x`, then `wr BPp, …`, for each plane of a list in order (R57, `wrchan`). -/
def wrchanPlanes (c : Channel) (b : Byte) : List PlaneIdx → Script
  | [] => .done none
  | p :: ps => .ask (.rdBp p) fun x => .emit (.wrBp p (withBit x c b p)) (wrchanPlanes c b ps)

/-- The expansion of a pseudo-operation (R57). -/
def Pseudo.expand : Pseudo → Script
  | .pclk n => Script.emitAll (List.replicate n .evPclk) (.done none)
  | .frame => Script.emitAll (List.replicate 256 .evPclk) (.done none)
  | .frcclk n => Script.emitAll (List.replicate n .evFrcclk) (.done none)
  | .wrplanes b => Script.emitAll ([0, 1, 2, 3, 4, 5, 6, 7].map fun p : PlaneIdx => .wrBp p b[p]) (.done none)
  | .wrchan c b => wrchanPlanes c b [0, 1, 2, 3, 4, 5, 6, 7]
  | .consume i => .ask .rdPend fun x =>
      if x.getLsbD i then .ask (.rdDur i) fun d => .emit (.clrPend (1#16 <<< i.val)) (.done (some d))
      else .done none

/-- The state after an operation; an operation that gives no next state (none does) leaves it. -/
def after (i : Instr) (s : State) : State :=
  match exec i s with
  | .next t => t
  | .fault _ => s
  | .refused _ => s

/-- The state after a list of operations, one step each. -/
def afterAll : List Instr → State → State
  | [], s => s
  | i :: is, s => afterAll is (after i s)

/-- The data word of the OK response just given, 0 where there is none. Never asked after an ERR: `Script.run` ends there. -/
def respData (s : State) : Word :=
  match s.resp with
  | some ⟨.ok, some d⟩ => d
  | some ⟨.ok, none⟩ => 0#16
  | some ⟨.err, _⟩ => 0#16
  | none => 0#16

/-- Run a script as a host program: an operation answered ERR is its fault, and nothing of the script runs after it (R97).
Before each operation the steps of the other agents in the next list of `env` happen (R41: any number of events may fall
between two transactions; no response is given to them). The answer is what the host learnt and the state left. -/
def Script.run : Script → List (List Instr) → State → Host.Outcome (Option Word × State) HostFault Refusal
  | .done r, _, s => .next (r, s)
  | .emit i k, env, s =>
    match hostExec i (afterAll (env.headD []) s) with
    | .next t => k.run env.tail t
    | .fault f => .fault f
    | .refused r => .refused r
  | .ask i k, env, s =>
    match hostExec i (afterAll (env.headD []) s) with
    | .next t => (k (respData t)).run env.tail t
    | .fault f => .fault f
    | .refused r => .refused r

end Sys2Proof.Machine
end

