-- ==== Sys2Proof/Machine/Assembler.lean ====
section
/-! DEFINITION. The textual form of the operations (30_encoding.md R56) and pseudo-operations (R57): an assembler from one
line of text and a disassembler. What R56 leaves open is in log entry 10. Text is a list of characters. -/

namespace Sys2Proof.Machine.Asm

/-! ### Tokens -/

/-- Split a line into tokens: blanks separate, a comma is a token, `;` starts a comment; letters become lower case (R56:
"case-insensitive"). `cur` holds the token being read, last character first. -/
def tokens (cur : List Char) : List Char → List (List Char)
  | [] => flush cur []
  | c :: cs =>
    if c = ';' then flush cur []
    else if c = ' ' || c = '\t' then flush cur (tokens [] cs)
    else if c = ',' then flush cur ([','] :: tokens [] cs)
    else tokens (c.toLower :: cur) cs
where
  /-- Put the token being read, if any, in front. -/
  flush (cur : List Char) (rest : List (List Char)) : List (List Char) :=
    if cur.isEmpty then rest else cur.reverse :: rest

/-- The operands after the first: each preceded by one comma; none if the text is not of that form. -/
def moreOperands : List (List Char) → Option (List (List Char))
  | [] => some []
  | [_] => none
  | comma :: t :: ts => if comma = [','] && t ≠ [','] then (moreOperands ts).map (t :: ·) else none

/-- Operands separated by commas. -/
def operands : List (List Char) → Option (List (List Char))
  | [] => some []
  | t :: ts => if t = [','] then none else (moreOperands ts).map (t :: ·)

/-! ### Numbers and registers -/

/-- The digit values, lower case. -/
def digits : List Char := ['0', '1', '2', '3', '4', '5', '6', '7', '8', '9', 'a', 'b', 'c', 'd', 'e', 'f']

/-- The value of a digit in a base. -/
def digitValue (base : Nat) (c : Char) : Option Nat :=
  let v := digits.idxOf c
  if v < base then some v else none

/-- The value of a list of digits in a base, `acc` the value so far. -/
def number (base : Nat) (acc : Nat) : List Char → Option Nat
  | [] => some acc
  | c :: cs => (digitValue base c).bind fun v => number base (acc * base + v) cs

/-- A number: "decimal, `0x` hexadecimal or `0b` binary" (R56), at least one digit. -/
def parseNat : List Char → Option Nat
  | [] => none
  | '0' :: 'x' :: c :: cs => number 16 0 (c :: cs)
  | '0' :: 'b' :: c :: cs => number 2 0 (c :: cs)
  | c :: cs => number 10 0 (c :: cs)

/-- A number that fits `n` bits, "or the line is rejected by the assembler" (R56). -/
def parseBits (n : Nat) (t : List Char) : Option (BitVec n) :=
  (parseNat t).bind fun v => if v < 2 ^ n then some (BitVec.ofNat n v) else none

/-- The register whose name is `name` followed by one digit below `n`. -/
def indexed (n : Nat) (mk : Fin n → Reg) (c : Char) : Option Reg :=
  (digitValue 10 c).bind fun v => if h : v < n then some (mk ⟨v, h⟩) else none

/-- A register name (R56). -/
def parseReg : List Char → Option Reg
  | ['b', 'p', c] => indexed 8 .bp c
  | ['t', 'i', 'c', 'k', c] => indexed 7 .tick c
  | ['d', 'u', 'r', c] => indexed 3 .dur c
  | ['s', 't', 'a', 'r', 't', c] => indexed 3 .start c
  | ['p', 'e', 'n', 'd'] => some .pend
  | ['l', 'v', 'l'] => some .lvl
  | ['f', 'r', 'c'] => some .frc
  | ['r', 'e', 'l', 'o', 'a', 'd'] => some .reload
  | ['o', 'u', 't'] => some .out
  | ['p', 'l', 'a', 'n', 'e'] => some .plane
  | ['p', 'c', 'n', 't'] => some .pcnt
  | ['p', 'o', 'c', 'r'] => some .pocr
  | _ => none

/-- An address operand: a register name, or a raw address (R56). -/
def parseAddr (t : List Char) : Option Addr :=
  match parseReg t with
  | some r => some r.addr
  | none => parseBits 8 t

/-! ### Lines -/

/-- One line assembled: an operation, or a pseudo-operation. -/
inductive Item where
  | op (i : Instr)
  | pseudo (p : Pseudo)
  deriving DecidableEq, Repr

/-- `wr NAME, d` and `wr 0xAA, d`: a store to a bit-plane, or a write answered ERR; `sub` and `clr` spell the other two
writes (R56; log entry 10). -/
def wrItem (a : Addr) (d : Word) : Option Item :=
  match decodeWrite a d with
  | .wrBp p e => some (.op (.wrBp p e))
  | .wrErr b e => some (.op (.wrErr b e))
  | _ => none

/-- `sub TICKc, d`. -/
def subItem (a : Addr) (d : Word) : Option Item :=
  match decodeWrite a d with
  | .subTick c e => some (.op (.subTick c e))
  | _ => none

/-- `clr PEND, d`. -/
def clrItem (a : Addr) (d : Word) : Option Item :=
  match decodeWrite a d with
  | .clrPend e => some (.op (.clrPend e))
  | _ => none

/-- An operation with an address and a data operand. -/
def addrData (item : Addr → Word → Option Item) (a d : List Char) : Option Item :=
  (parseAddr a).bind fun a => (parseBits 16 d).bind fun d => item a d

/-- A number below `n`. -/
def parseFin (n : Nat) (t : List Char) : Option (Fin n) :=
  (parseNat t).bind fun v => if h : v < n then some ⟨v, h⟩ else none

/-- `ev pclk`, `ev frcclk`, `ev reset`. -/
def evItem : List Char → Option Item
  | ['p', 'c', 'l', 'k'] => some (.op .evPclk)
  | ['f', 'r', 'c', 'c', 'l', 'k'] => some (.op .evFrcclk)
  | ['r', 'e', 's', 'e', 't'] => some (.op .evReset)
  | _ => none

/-- The eight data operands of `wrplanes`. -/
def wrplanesItem (ts : List (List Char)) : Option Item :=
  match ts.mapM (parseBits 16) with
  | some [b0, b1, b2, b3, b4, b5, b6, b7] => some (.pseudo (.wrplanes #v[b0, b1, b2, b3, b4, b5, b6, b7]))
  | _ => none

/-- An operation or pseudo-operation from its first word and its operands (R56, R57). -/
def item (head : List Char) (args : List (List Char)) : Option Item :=
  match head, args with
  | ['r', 'd'], [a] => (parseAddr a).map fun a => .op (decodeRead a)
  | ['w', 'r'], [a, d] => addrData wrItem a d
  | ['s', 'u', 'b'], [a, d] => addrData subItem a d
  | ['c', 'l', 'r'], [a, d] => addrData clrItem a d
  | ['p', 'c', 'l', 'k'], [n] => (parseNat n).map fun n => .pseudo (.pclk n)
  | ['f', 'r', 'c', 'c', 'l', 'k'], [n] => (parseNat n).map fun n => .pseudo (.frcclk n)
  | ['f', 'r', 'a', 'm', 'e'], [] => some (.pseudo .frame)
  | ['w', 'r', 'p', 'l', 'a', 'n', 'e', 's'], bs => wrplanesItem bs
  | ['w', 'r', 'c', 'h', 'a', 'n'], [c, b] =>
    (parseFin 7 c).bind fun c => (parseBits 8 b).map fun b => .pseudo (.wrchan c b)
  | ['c', 'o', 'n', 's', 'u', 'm', 'e'], [i] => (parseFin 3 i).map fun i => .pseudo (.consume i)
  | _, _ => none

/-- One line that is not blank; none if the assembler rejects it. `ev` takes its event name, and `ev edge` its levels,
without a comma (R56). -/
def assembleTokens : List (List Char) → Option Item
  | [] => none
  | [['e', 'v'], ['e', 'd', 'g', 'e'], v] => (parseBits 3 v).map fun v => .op (.evEdge v)
  | [['e', 'v'], name] => evItem name
  | head :: rest => (operands rest).bind (item head)

/-- Assemble one line. -/
def assemble (line : List Char) : Option Item := assembleTokens (tokens [] line)

/-- Assemble a text, "one per line" (R56): lines with no token (blank, or only a comment) give nothing; none if a line is
rejected. -/
def assembleText : List (List Char) → Option (List Item)
  | [] => some []
  | line :: ls =>
    if (tokens [] line).isEmpty then assembleText ls
    else (assemble line).bind fun x => (assembleText ls).map (x :: ·)

/-! ### Disassembly -/

/-- A hexadecimal digit. -/
def hexDigit (n : Nat) : Char := digits.getD (n % 16) '0'

/-- A data word as `0x` and four digits (log entry 10). -/
def showWord (d : Word) : List Char :=
  ['0', 'x', hexDigit (d.toNat / 4096), hexDigit (d.toNat / 256), hexDigit (d.toNat / 16), hexDigit d.toNat]

/-- A raw address as `0x` and two digits. -/
def showByte (a : Addr) : List Char := ['0', 'x', hexDigit (a.toNat / 16), hexDigit a.toNat]

/-- The name of a register (R56). -/
def showReg : Reg → List Char
  | .bp p => ['B', 'P', hexDigit p]
  | .tick c => ['T', 'I', 'C', 'K', hexDigit c]
  | .dur i => ['D', 'U', 'R', hexDigit i]
  | .pend => ['P', 'E', 'N', 'D']
  | .lvl => ['L', 'V', 'L']
  | .start i => ['S', 'T', 'A', 'R', 'T', hexDigit i]
  | .frc => ['F', 'R', 'C']
  | .reload => ['R', 'E', 'L', 'O', 'A', 'D']
  | .out => ['O', 'U', 'T']
  | .plane => ['P', 'L', 'A', 'N', 'E']
  | .pcnt => ['P', 'C', 'N', 'T']
  | .pocr => ['P', 'O', 'C', 'R']

/-- "A disassembler prints the name wherever the map … has one" (R56), else the raw address. -/
def showAddr (a : Addr) : List Char :=
  match regAt a with
  | some r => showReg r
  | none => showByte a

/-- `rd` and an address. -/
def showRead (a : Addr) : List Char := ['r', 'd', ' '] ++ showAddr a

/-- The textual form of an operation (R56). -/
def disassemble : Instr → List Char
  | .rdBp p => showRead (Reg.bp p).addr
  | .rdTick c => showRead (Reg.tick c).addr
  | .rdDur i => showRead (Reg.dur i).addr
  | .rdPend => showRead Reg.pend.addr
  | .rdLvl => showRead Reg.lvl.addr
  | .rdStart i => showRead (Reg.start i).addr
  | .rdFrc => showRead Reg.frc.addr
  | .rdReload => showRead Reg.reload.addr
  | .rdOut => showRead Reg.out.addr
  | .rdPlane => showRead Reg.plane.addr
  | .rdPcnt => showRead Reg.pcnt.addr
  | .rdPocr => showRead Reg.pocr.addr
  | .rdUnmapped a => showRead a
  | .wrBp p d => ['w', 'r', ' '] ++ showReg (.bp p) ++ [',', ' '] ++ showWord d
  | .subTick c d => ['s', 'u', 'b', ' '] ++ showReg (.tick c) ++ [',', ' '] ++ showWord d
  | .clrPend d => ['c', 'l', 'r', ' '] ++ showReg .pend ++ [',', ' '] ++ showWord d
  | .wrErr a d => ['w', 'r', ' '] ++ showAddr a ++ [',', ' '] ++ showWord d
  | .evPclk => ['e', 'v', ' ', 'p', 'c', 'l', 'k']
  | .evFrcclk => ['e', 'v', ' ', 'f', 'r', 'c', 'c', 'l', 'k']
  | .evEdge v => ['e', 'v', ' ', 'e', 'd', 'g', 'e', ' ', hexDigit v.toNat]
  | .evReset => ['e', 'v', ' ', 'r', 'e', 's', 'e', 't']

end Sys2Proof.Machine.Asm
end

