-- ==== Sys2Proof/Machine/Bus.lean ====
section
/-! DEFINITION. The host's view of the block: `BusRead(a)` and `BusWrite(a, d)` (00_scope.md R11, 20_memory.md R29) by
address, written line by line from the register map (R30). The meanings of the transactions are written from their own
rules; that the two agree is stated in the obligations. -/

namespace Sys2Proof.Machine

/-- An `OK` response with data. -/
def okData (d : Word) : BusResponse := ⟨.ok, some d⟩

/-- `BusRead(a)`: the response of a read of address `a` (R30, columns "address" and "read returns"). -/
def busRead (s : State) (a : Addr) : BusResponse :=
  let n := a.toNat
  if h : n < 8 then okData (zext16 (s.bp[n]'h))
  else if h : 0x08 ≤ n ∧ n < 0x0F then okData (s.tick[n - 0x08]'(by omega))
  else if h : 0x10 ≤ n ∧ n < 0x13 then okData (s.dur[n - 0x10]'(by omega))
  else if n = 0x14 then okData (zext16 s.pend)
  else if n = 0x15 then okData (zext16 s.lvl)
  else if h : 0x18 ≤ n ∧ n < 0x1B then okData (s.start[n - 0x18]'(by omega))
  else if n = 0x1C then okData s.frc
  else if n = 0x1D then okData s.reload
  else if n = 0x20 then okData (zext16 s.out)
  else if n = 0x21 then okData (zext16 s.plane)
  else if n = 0x22 then okData (zext16 s.pcnt)
  else if n = 0x23 then okData (zext16 s.pocr)
  else ⟨.err, some 0x0000#16⟩

/-- `BusWrite(a, d)`: the response of a write and the state it leaves (R30, columns "address" and "write does"). -/
def busWrite (s : State) (a : Addr) (d : Word) : BusResponse × State :=
  let n := a.toNat
  if h : n < 8 then (⟨.ok, none⟩, s.setBp ⟨n, h⟩ (planeData d))
  else if h : 0x08 ≤ n ∧ n < 0x0F then
    (⟨.ok, none⟩, s.setTick ⟨n - 0x08, by omega⟩ (satSub (s.tick[n - 0x08]'(by omega)) d))
  else if n = 0x14 then (⟨.ok, none⟩, s.setPend (clearPend s.pend d))
  else (⟨.err, none⟩, s)

/-- The 7 output lines, "equal at every moment to OUT[6:0]" (10_state.md R28); line `c` high is LED `c` on (R8). -/
def outputLines (s : State) : BitVec 7 := s.out

end Sys2Proof.Machine
end

