-- ==== Sys2Proof/Safety.lean ====
section
/-! DEFINITION. The terms claims are stated in: the invariants of the block, sorts of operations, counts over a run, what
a host that takes ERR for a fault calls a safe run, and weak fairness. No step reads any of them. -/

namespace Sys2Proof

/-- A transaction of the host (R4 (1)); the others are hardware events. -/
def Instr.isHost : Instr → Bool
  | .rdBp _ | .rdTick _ | .rdDur _ | .rdPend | .rdLvl | .rdStart _ | .rdFrc | .rdReload | .rdOut | .rdPlane | .rdPcnt
  | .rdPocr | .rdUnmapped _ | .wrBp _ _ | .subTick _ _ | .clrPend _ | .wrErr _ _ => true
  | .evPclk | .evFrcclk | .evEdge _ | .evReset => false

/-- A step of one of the running agents: the PWM clock, the FRC clock or the input environment (R4 (2) to (4)). -/
def Instr.isRunning : Instr → Bool
  | .evPclk | .evFrcclk | .evEdge _ => true
  | .rdBp _ | .rdTick _ | .rdDur _ | .rdPend | .rdLvl | .rdStart _ | .rdFrc | .rdReload | .rdOut | .rdPlane | .rdPcnt
  | .rdPocr | .rdUnmapped _ | .wrBp _ _ | .subTick _ _ | .clrPend _ | .wrErr _ _ | .evReset => false

/-- A transaction the bus answers with ERR: RD_UNMAPPED or WR_ERR (R93, R94, R97). -/
def Instr.answersErr : Instr → Bool
  | .rdUnmapped _ | .wrErr _ _ => true
  | .rdBp _ | .rdTick _ | .rdDur _ | .rdPend | .rdLvl | .rdStart _ | .rdFrc | .rdReload | .rdOut | .rdPlane | .rdPcnt
  | .rdPocr | .wrBp _ _ | .subTick _ _ | .clrPend _ | .evPclk | .evFrcclk | .evEdge _ | .evReset => false

namespace Machine

/-! ### Invariants -/

/-- `PLANE` as the function of `PCNT` that 40_pwm.md R61 (2) gives. -/
def planeAt (n : BitVec 8) : BitVec 3 :=
  if n.toNat < 2 then 1#3
  else if n.toNat < 4 then 2#3
  else if n.toNat < 8 then 3#3
  else if n.toNat < 16 then 4#3
  else if n.toNat < 32 then 5#3
  else if n.toNat < 64 then 6#3
  else if n.toNat < 128 then 7#3
  else 0#3

/-- The PWM invariants R61 (1) and (2). -/
structure State.PwmInv (s : State) : Prop where
  pocr_of_plane : s.plane ≠ 0#3 → s.pocr.toNat = 2 ^ s.plane.toNat
  pocr_of_plane_zero : s.plane = 0#3 → s.pocr = 0#8
  plane_of_count : s.plane = planeAt s.pcnt

/-- `FRC_RELOAD <= FRC` (R20). -/
def State.FrcInv (s : State) : Prop := s.reload ≤ s.frc

/-- Both invariants. -/
structure State.Inv (s : State) : Prop where
  pwm : s.PwmInv
  frc : s.FrcInv

/-! ### Runs -/

/-- The state after the first `n` operations of an infinite schedule. -/
def stateAt (sched : Nat → Instr) (s : State) : Nat → State
  | 0 => s
  | n + 1 => after (sched n) (stateAt sched s n)

/-- Whether operation `i` in state `s` is a tick: the clock that wraps the free-running counter (R72, R73). -/
def isTick (i : Instr) (s : State) : Bool := i == .evFrcclk && s.frc == 0xFFFF#16

/-- Whether operation `i` in state `s` is an overflow plane event (R58, R59). -/
def isOverflow (i : Instr) (s : State) : Bool := i == .evPclk && s.pcnt == 0xFF#8

/-- Whether operation `i` in state `s` is a compare plane event (R58, R60). -/
def isCompare (i : Instr) (s : State) : Bool :=
  i == .evPclk && s.pcnt + 1#8 != 0#8 && s.pcnt + 1#8 == s.pocr

/-- The number of ticks in a run. -/
def ticksIn : List Instr → State → Nat
  | [], _ => 0
  | i :: is, s => (isTick i s).toNat + ticksIn is (after i s)

/-- The number of EV_PCLK steps of a run after which output line `c` is high (R63). -/
def countsHigh (c : Channel) : List Instr → State → Nat
  | [], _ => 0
  | i :: is, s => (i == .evPclk && (after i s).out.getLsbD c).toNat + countsHigh c is (after i s)

/-- The brightness byte of channel `c`: the sum over `p` of `BP[p][c] * 2^p` (R63). -/
def brightness (bp : Vector Byte 8) (c : Channel) : Nat :=
  ((List.finRange 8).map fun p : PlaneIdx => (bp[p].getLsbD c).toNat * 2 ^ p.val).sum

/-- The plane shown `k` EV_PCLK steps after an overflow, `k < 256` (the table of R62). -/
def planeShown (k : Nat) : PlaneIdx :=
  if k < 2 then 0 else if k < 4 then 1 else if k < 8 then 2 else if k < 16 then 3 else if k < 32 then 4
  else if k < 64 then 5 else if k < 128 then 6 else 7

/-- Line `i` rises when `v` is presented in state `s` (R80). -/
def rises (i : Line) (v : Lines) (s : State) : Bool := v.getLsbD i && !s.lvl.getLsbD i

/-- Line `i` falls when `v` is presented in state `s` (R80). -/
def falls (i : Line) (v : Lines) (s : State) : Bool := !v.getLsbD i && s.lvl.getLsbD i

/-- A step the host may call safe: it goes on, and the bus did not answer ERR ("A model of a host program should treat an
ERR as a fault of that program", R97). -/
def SafeStep (s : State) : Prop :=
  ∃ t, step s = .next t ∧ ∀ r, t.resp = some r → r.status = .ok

/-- A run of `n` steps that a host program completes: no step of it answered ERR, and none was refused (R97); that every
ERR is a fault is log entry 14. -/
def SafeRun (n : Nat) (s : State) : Prop := ∃ t, hostCore.run n s = .next t

/-- A schedule in which each of the two clocks steps again and again: the only assumption about progress (R118). -/
def WeaklyFair (sched : Nat → Instr) : Prop :=
  (∀ n, ∃ m, n ≤ m ∧ sched m = .evPclk) ∧ (∀ n, ∃ m, n ≤ m ∧ sched m = .evFrcclk)

end Machine

end Sys2Proof
end

