-- ==== Sys2Proof/Certificates/Slice0/Obligations.lean ====
section
/-! DEFINITION. The statements for the provers. Rules are those of spec/; a transaction word is written as a number, from the
format its rule names (A in bits 23:16, D in bits 15:0). Three fields of State are the model's own: `resp`, `pending` and
`reload` (log entries 3, 1 and 6); what `resp` holds after an event is left open (`r`) in the statements on the events' results, and
that an operation leaves the words not yet presented is the model's convention; where another statement rests on what the
model chose for these fields, its docstring names the log entry. Everything else a statement says of a next state is the
spec's. -/

open Sys2Proof Sys2Proof.Machine

/-! ### Host transactions: encoding, result and frame, the last two as the whole next state -/

/-- R66, R75, R87, R88: the reads of the shared data answer OK with the register, zero-extended, and change nothing;
the addresses behind the last TICK and the last DUR have no register, and a write to a DUR is WR_ERR. -/
def Obligations.DataReadsAnswerTheRegister : Prop :=
  (∀ p : PlaneIdx, decode (BitVec.ofNat 32 ((0x00 + p.val) * 65536)) = .ok (.rdBp p)) ∧
  (∀ c : Channel, decode (BitVec.ofNat 32 ((0x08 + c.val) * 65536)) = .ok (.rdTick c)) ∧
  (∀ i : Line, decode (BitVec.ofNat 32 ((0x10 + i.val) * 65536)) = .ok (.rdDur i)) ∧
  decode 0x00140000#32 = .ok .rdPend ∧
  decode 0x000F0000#32 = .ok (.rdUnmapped 0x0F#8) ∧ decode 0x00130000#32 = .ok (.rdUnmapped 0x13#8) ∧
  (∀ (i : Line) (d : Word), decode (BitVec.ofNat 32 (0x40000000 + (0x10 + i.val) * 65536 + d.toNat)) =
    .ok (.wrErr (BitVec.ofNat 8 (0x10 + i.val)) d)) ∧
  ∀ s : State,
    (∀ p : PlaneIdx, exec (.rdBp p) s = .next { s with resp := some ⟨.ok, some (s.bp[p].setWidth 16)⟩ }) ∧
    (∀ c : Channel, exec (.rdTick c) s = .next { s with resp := some ⟨.ok, some s.tick[c]⟩ }) ∧
    (∀ i : Line, exec (.rdDur i) s = .next { s with resp := some ⟨.ok, some s.dur[i]⟩ }) ∧
    exec .rdPend s = .next { s with resp := some ⟨.ok, some (s.pend.setWidth 16)⟩ }

/-- 40_pwm.md section 3, 41_tick.md section 3, 42_capture.md section 3: the read-only status registers answer OK with their
content, zero-extended, and a read changes nothing. -/
def Obligations.StatusReadsAnswerTheRegister : Prop :=
  ∀ s : State,
    exec .rdOut s = .next { s with resp := some ⟨.ok, some (s.out.setWidth 16)⟩ } ∧
    exec .rdPlane s = .next { s with resp := some ⟨.ok, some (s.plane.setWidth 16)⟩ } ∧
    exec .rdPcnt s = .next { s with resp := some ⟨.ok, some (s.pcnt.setWidth 16)⟩ } ∧
    exec .rdPocr s = .next { s with resp := some ⟨.ok, some (s.pocr.setWidth 16)⟩ } ∧
    exec .rdFrc s = .next { s with resp := some ⟨.ok, some s.frc⟩ } ∧
    exec .rdReload s = .next { s with resp := some ⟨.ok, some s.reload⟩ } ∧
    exec .rdLvl s = .next { s with resp := some ⟨.ok, some (s.lvl.setWidth 16)⟩ } ∧
    ∀ i : Line, exec (.rdStart i) s = .next { s with resp := some ⟨.ok, some s.start[i]⟩ }

/-- R67: `BP[p] <- d[7:0]; respond OK`, and nothing else changes. -/
def Obligations.WrBpStoresTheLowByte : Prop :=
  ∀ (p : PlaneIdx) (d : Word),
    decode (BitVec.ofNat 32 (0x40000000 + (0x00 + p.val) * 65536 + d.toNat)) = .ok (.wrBp p d) ∧
    ∀ s : State, exec (.wrBp p d) s = .next { s with
      bp := Vector.ofFn fun q : PlaneIdx => if q = p then BitVec.ofNat 8 (d.toNat % 256) else s.bp[q]
      resp := some ⟨.ok, none⟩ }

/-- R76: `TICK[c] <- sat_sub(TICK[c], d)` (the subtraction of Nat is the clamped one), `respond OK`, and nothing else
changes; a write to the next address is WR_ERR. -/
def Obligations.SubTickSubtractsClampedAtZero : Prop :=
  ∀ (c : Channel) (d : Word),
    decode (BitVec.ofNat 32 (0x40000000 + (0x08 + c.val) * 65536 + d.toNat)) = .ok (.subTick c d) ∧
    decode (BitVec.ofNat 32 (0x400F0000 + d.toNat)) = .ok (.wrErr 0x0F#8 d) ∧
    ∀ s : State, exec (.subTick c d) s = .next { s with
      tick := Vector.ofFn fun e : Channel =>
        if e = c then BitVec.ofNat 16 (s.tick[c].toNat - d.toNat) else s.tick[e]
      resp := some ⟨.ok, none⟩ }

/-- R89: each flag whose bit is 1 in `d` is cleared, each other flag and every other register stays, `respond OK`. -/
def Obligations.ClrPendClearsTheFlagsWrittenOne : Prop :=
  ∀ d : Word, decode (BitVec.ofNat 32 (0x40140000 + d.toNat)) = .ok (.clrPend d) ∧
    ∀ s : State, ∃ t : State,
      exec (.clrPend d) s = .next t ∧
      (∀ i : Line, t.pend.getLsbD i = (s.pend.getLsbD i && !d.getLsbD i)) ∧
      { t with pend := s.pend } = { s with resp := some ⟨.ok, none⟩ }

/-- 43_system.md (R93, R94): reads of unmapped addresses and writes that reach no writable register answer ERR, a read with
data 0x0000, and no register changes; the model holds the answer as a completed step (log entry 4). -/
def Obligations.ErrorTransactionsChangeNothing : Prop :=
  ∀ (s : State) (a : Addr) (d : Word),
    exec (.rdUnmapped a) s = .next { s with resp := some ⟨.err, some 0x0000#16⟩ } ∧
    exec (.wrErr a d) s = .next { s with resp := some ⟨.err, none⟩ }

/-! ### Hardware events: result and frame -/

/-- R58, R59, R60: one PWM clock, with `n = (PCNT + 1) mod 256`: overflow event at `n = 0`, compare event at a non-zero `n`
equal to POCR, else only the counter; nothing else changes. -/
def Obligations.PwmClockAdvancesAndShowsThePlane : Prop :=
  decode 0x81000000#32 = .ok .evPclk ∧
  ∀ s : State, ∃ r : Option BusResponse, ∀ n : Nat, n = (s.pcnt.toNat + 1) % 256 →
    (n = 0 → exec .evPclk s = .next { s with
      pcnt := 0x00#8, out := BitVec.ofNat 7 (s.bp[(0 : PlaneIdx)].toNat % 128), pocr := 0x02#8, plane := 1#3
      resp := r }) ∧
    (n ≠ 0 → n = s.pocr.toNat → exec .evPclk s = .next { s with
      pcnt := BitVec.ofNat 8 n
      out := BitVec.ofNat 7 ((s.bp[s.plane.toNat]'(s.plane.isLt)).toNat % 128)
      pocr := BitVec.ofNat 8 (2 ^ (s.plane.toNat + 1) % 256)
      plane := BitVec.ofNat 3 ((s.plane.toNat + 1) % 8)
      resp := r }) ∧
    (n ≠ 0 → n ≠ s.pocr.toNat → exec .evPclk s = .next { s with pcnt := BitVec.ofNat 8 n, resp := r })

/-- R72, R73: one FRC clock: at 0xFFFF the counter takes `FRC_RELOAD` and every tick counter advances by one modulo 2^16,
else the counter advances by one; nothing else changes. A count not below
`FRC_RELOAD` never goes below it. -/
def Obligations.FrcClockAdvancesOrReloadsAndTicks : Prop :=
  decode 0x82000000#32 = .ok .evFrcclk ∧
  ∀ s : State, ∃ r : Option BusResponse,
    (s.frc = 0xFFFF#16 → exec .evFrcclk s = .next { s with
      frc := s.reload
      tick := Vector.ofFn fun c : Channel => BitVec.ofNat 16 ((s.tick[c].toNat + 1) % 65536)
      resp := r }) ∧
    (s.frc ≠ 0xFFFF#16 → exec .evFrcclk s = .next { s with frc := BitVec.ofNat 16 (s.frc.toNat + 1), resp := r }) ∧
    (s.reload ≤ s.frc → ∀ t, exec .evFrcclk s = .next t → s.reload ≤ t.frc)

/-- R80, R81, R82: `EV_EDGE v`: a line that rises records the time stamp FRC; a line that falls posts its duration and sets
its flag; a line that does not change keeps all three; LVL takes `v`; every other register stays. The duration is written
in exact integers: `now - START`, or, where that "would appear to go negative", that plus 65536 less `FRC_RELOAD`, modulo
2^16; it is less than the wrap period where neither count is below `FRC_RELOAD`. -/
def Obligations.EdgeEventRecordsRisesAndPostsFalls : Prop :=
  (∀ v : Lines, decode (BitVec.ofNat 32 (0x83000000 + v.toNat)) = .ok (.evEdge v)) ∧
  ∀ (s : State) (v : Lines), ∃ t : State,
    exec (.evEdge v) s = .next t ∧ t.lvl = v ∧
    (∀ i : Line,
      (rises i v s = true → t.start[i] = s.frc ∧ t.dur[i] = s.dur[i] ∧ t.pend.getLsbD i = s.pend.getLsbD i) ∧
      (falls i v s = true → t.start[i] = s.start[i] ∧ t.pend.getLsbD i = true ∧
        t.dur[i].toNat =
          if s.start[i].toNat ≤ s.frc.toNat then s.frc.toNat - s.start[i].toNat
          else (2 * 65536 + s.frc.toNat - s.start[i].toNat - s.reload.toNat) % 65536) ∧
      (falls i v s = true → s.reload ≤ s.start[i] → s.reload ≤ s.frc → t.dur[i].toNat < wrapPeriod s.reload) ∧
      (v.getLsbD i = s.lvl.getLsbD i →
        t.start[i] = s.start[i] ∧ t.dur[i] = s.dur[i] ∧ t.pend.getLsbD i = s.pend.getLsbD i)) ∧
    { t with lvl := s.lvl, start := s.start, dur := s.dur, pend := s.pend, resp := s.resp } = s

/-- R92: EV_RESET puts every register at its reset value; RELOAD, a constant, and the words not yet presented stay. -/
def Obligations.EvResetPutsEveryRegisterAtItsResetValue : Prop :=
  decode 0xBF000000#32 = .ok .evReset ∧
  ∀ s : State, ∃ r : Option BusResponse, exec .evReset s = .next
    { bp := #v[0#8, 0#8, 0#8, 0#8, 0#8, 0#8, 0#8, 0#8], out := 0#7, pcnt := 0x00#8, pocr := 0x02#8, plane := 1#3
      tick := #v[0#16, 0#16, 0#16, 0#16, 0#16, 0#16, 0#16], frc := s.reload, lvl := 0#3
      start := #v[0#16, 0#16, 0#16], dur := #v[0#16, 0#16, 0#16], pend := 0#3
      reload := s.reload, pending := s.pending, resp := r }

/-- 70_reset_and_hazards.md section 1: power-on and EV_RESET have the same effect: from any state of the same model instance
(the same `FRC_RELOAD`) the event gives the initial state, the words not yet presented apart. That these are kept, and that
the event leaves the response `none` that the initial state has, is the model's choice (log entries 1 and 3). -/
def Obligations.PowerOnAndEvResetHaveTheSameEffect : Prop :=
  ∀ s : State, s.reload = State.reset.reload → exec .evReset s = .next { State.reset with pending := s.pending }

/-! ### Encoding -/

/-- 30_encoding.md section 3: words written out from the formats decode to the operations they stand for. -/
def Obligations.WordsWrittenFromTheFormatsDecode : Prop :=
  decode 0b00_000000_00000101_0000000000000000#32 = .ok (.rdBp 5) ∧
  decode 0b01_000000_00000111_1111111110000000#32 = .ok (.wrBp 7 0xFF80#16) ∧
  decode 0b01_000000_00001110_0001001000110100#32 = .ok (.subTick 6 0x1234#16) ∧
  decode 0b00_000000_00001111_0000000000000000#32 = .ok (.rdUnmapped 0x0F#8) ∧
  decode 0b00_000000_00011010_0000000000000000#32 = .ok (.rdStart 2) ∧
  decode 0b01_000000_00010100_0000000000000101#32 = .ok (.clrPend 5#16) ∧
  decode 0b01_000000_00100011_0000000000000000#32 = .ok (.wrErr 0x23#8 0#16) ∧
  decode 0b10_000001_00000000_0000000000000000#32 = .ok .evPclk ∧
  decode 0b10_000010_00000000_0000000000000000#32 = .ok .evFrcclk ∧
  decode 0b10_000011_00000000_0000000000000110#32 = .ok (.evEdge 6#3) ∧
  decode 0b10_111111_00000000_0000000000000000#32 = .ok .evReset

/-- 30_encoding.md sections 1 to 3: every well-formed operation is read back from its word, every operand included. -/
def Obligations.DecodeOfEncodeIsTheOperation : Prop :=
  ∀ i : Instr, i.wf = true → decode (encode i) = .ok i

/-- 30_encoding.md section 3: a word that decodes is the word of its operation, which is well-formed: no two words spell one
operation, and the decoder drops no bit. -/
def Obligations.EncodeOfDecodeIsTheWord : Prop :=
  ∀ (w : TxWord) (i : Instr), decode w = .ok i → i.wf = true ∧ encode i = w

/-- 30_encoding.md section 3: "Decoding is the first match in this order; a word matching no line is reserved": the decoder
gives a word the mnemonic of the first row of the opcode table that matches, and no operation where none does. -/
def Obligations.DecodingIsTheFirstMatchOfTheTable : Prop :=
  ∀ w : TxWord, firstMatch w = (decode w).toOption.map Instr.mnemonic

/-- 20_memory.md section 1 (R30, R31): the addresses with no register are those listed as unmapped, and "no mapped register
answers at more than one address". -/
def Obligations.RegisterMapHasNoAlias : Prop :=
  (∀ a : Addr, regAt a = none ↔ Addr.unmapped a = true) ∧ (∀ (a : Addr) (r : Reg), regAt a = some r ↔ r.addr = a)

/-- 30_encoding.md section 5: the textual form of every well-formed operation assembles to it (the number format and the
spacing printed are the model's choice, log entry 10). -/
def Obligations.AssemblingTheDisassemblyGivesTheOperation : Prop :=
  ∀ i : Instr, i.wf = true → Asm.assemble (Asm.disassemble i) = some (.op i)

/-! ### The step -/

/-- 00_scope.md section 4, 30_encoding.md section 1: a step takes the next transaction word and executes the operation it
spells on the state without that word. With no word presented no agent steps and every register stays (log entry 2, the
model's choice). -/
def Obligations.StepRunsTheDecodedOperation : Prop :=
  ∀ s : State,
    (∀ (w : TxWord) (ws : List TxWord) (i : Instr), s.pending = w :: ws → decode w = .ok i →
      step s = exec i { s with pending := ws }) ∧
    (s.pending = [] → step s = .next { s with resp := none })

/-- 30_encoding.md section 4 (R54): the reserved words, by the list given there, are refused with the word on record, and
every other word completes with a next state. -/
def Obligations.ReservedWordsAreRefusedAndOthersComplete : Prop :=
  ∀ (s : State) (w : TxWord) (ws : List TxWord), s.pending = w :: ws →
    let k := w.toNat / 2 ^ 30
    let e := w.toNat / 2 ^ 24 % 64
    let d := w.toNat % 65536
    let reserved :=
      k = 3 ∨ (k = 0 ∧ (e ≠ 0 ∨ d ≠ 0)) ∨ (k = 1 ∧ e ≠ 0) ∨
      (k = 2 ∧ w ≠ 0x81000000#32 ∧ w ≠ 0x82000000#32 ∧ w ≠ 0xBF000000#32 ∧
        ¬ (0x83000000 ≤ w.toNat ∧ w.toNat ≤ 0x83000007))
    (reserved → ∃ why, step s = .refused (.reservedWord why w)) ∧ (¬ reserved → ∃ t, step s = .next t)

/-- 20_memory.md section 1 (R29, R30): a read word of address `a` answers what the register map says and changes nothing; a
write word does what the map says and answers what it says. -/
def Obligations.TransactionsFollowTheRegisterMap : Prop :=
  ∀ (s : State) (a : Addr) (d : Word) (ws : List TxWord),
    step { s with pending := BitVec.ofNat 32 (a.toNat * 65536) :: ws } =
      .next { s with pending := ws, resp := some (busRead s a) } ∧
    step { s with pending := BitVec.ofNat 32 (0x40000000 + a.toNat * 65536 + d.toNat) :: ws } =
      .next { (busWrite s a d).2 with pending := ws, resp := some (busWrite s a d).1 }

/-- 60_exceptions.md section 1: "The only error outcome of the block is the bus response ERR, given by RD_UNMAPPED and
WR_ERR": a step that decodes is safe for a host that takes ERR for a fault exactly if it is neither of the two. 20_memory.md
section 1 (R29): a host transaction "completes in the step that issues it, with response OK or ERR"; that the state this step
leaves holds the response, and that it holds none after an event, is the model's choice (log entry 3). -/
def Obligations.OnlyErrorTransactionsAnswerErr : Prop :=
  ∀ (s : State) (w : TxWord) (ws : List TxWord) (i : Instr), s.pending = w :: ws → decode w = .ok i →
    (SafeStep s ↔ ∀ a : Addr, i ≠ .rdUnmapped a ∧ ∀ d : Word, i ≠ .wrErr a d) ∧
    (∀ t, step s = .next t → t.resp.isSome = i.isHost)

/-- 20_memory.md section 3 (R40): a schedule of operations, presented as their words, runs as the operations one after
another: each step sees the state left by all steps before it. -/
def Obligations.RunningTheWordsOfAScheduleRunsItsOperations : Prop :=
  ∀ (l : List Instr) (s : State) (rest : List TxWord), (∀ i ∈ l, i.wf = true) →
    Sys2Proof.core.run l.length { s with pending := l.map encode ++ rest } =
      .next (afterAll l { s with pending := rest })

/-! ### Invariants and who writes what -/

/-- The invariants hold of the reset state (10_state.md R20, 40_pwm.md R61). -/
def Obligations.ResetStateMeetsTheInvariants : Prop := State.reset.Inv

/-- 40_pwm.md R61 (1) and (2) and 10_state.md R20, both marked derived in the spec: every step keeps them, from every state
that meets them. -/
def Obligations.EveryStepKeepsTheInvariants : Prop :=
  ∀ s t : State, s.Inv → step s = .next t → t.Inv

/-- 00_scope.md section 3, 10_state.md section 1 (R7, R13): `FRC_RELOAD` is fixed for a model instance, so no step changes
RELOAD. 30_encoding.md section 1 (R46): a step "consumes one such word"; that the words are a list of which the next is the
first, and that a step with no word left is idle (the tail of the empty list is empty), is the model's choice (log entries 1
and 2). -/
def Obligations.NoStepChangesReload : Prop :=
  ∀ s t : State, step s = .next t → t.reload = s.reload ∧ t.pending = s.pending.tail

/-- 40_pwm.md section 1 (R64): OUT changes only at plane events (or reset), and then shows the plane the event outputs: plane
0 at an overflow, plane PLANE at a compare. -/
def Obligations.OutChangesOnlyAtPlaneEvents : Prop :=
  ∀ (i : Instr) (s t : State), exec i s = .next t →
    (isOverflow i s = true → t.out = s.bp[(0 : PlaneIdx)].setWidth 7) ∧
    (isCompare i s = true → t.out = (s.bp[s.plane.toNat]'(s.plane.isLt)).setWidth 7) ∧
    (i = .evReset → t.out = 0#7) ∧
    (isOverflow i s = false → isCompare i s = false → i ≠ .evReset → t.out = s.out)

/-- 10_state.md section 2 (R14, R16 to R18): a bit-plane changes only by a WR_BP of that plane or reset; PCNT only by EV_PCLK
or reset; POCR and PLANE only at a plane event or reset. -/
def Obligations.PwmRegistersHaveTheStatedWriters : Prop :=
  ∀ (i : Instr) (s t : State), exec i s = .next t → i ≠ .evReset →
    (∀ p : PlaneIdx, (∀ d, i ≠ .wrBp p d) → t.bp[p] = s.bp[p]) ∧
    (i ≠ .evPclk → t.pcnt = s.pcnt) ∧
    (isOverflow i s = false → isCompare i s = false → t.pocr = s.pocr ∧ t.plane = s.plane)

/-- 10_state.md section 3 (R19, R20): a tick counter changes only at a tick, by a SUB_TICK of that counter, or at reset; FRC
only by EV_FRCCLK or reset. -/
def Obligations.TickRegistersHaveTheStatedWriters : Prop :=
  ∀ (i : Instr) (s t : State), exec i s = .next t → i ≠ .evReset →
    (∀ c : Channel, isTick i s = false → (∀ d, i ≠ .subTick c d) → t.tick[c] = s.tick[c]) ∧
    (i ≠ .evFrcclk → t.frc = s.frc)

/-- 10_state.md section 4 (R21 to R24): LVL changes only by EV_EDGE; START[i] only at a rising edge of line `i`; DUR[i] only
at a falling edge of line `i`; PEND[i] goes to 1 only at a falling edge of line `i` and to 0 only by a CLR_PEND with bit
`i` set; reset apart. -/
def Obligations.CaptureRegistersHaveTheStatedWriters : Prop :=
  ∀ (i : Instr) (s t : State), exec i s = .next t → i ≠ .evReset →
    ((∀ v, i ≠ .evEdge v) → t.lvl = s.lvl) ∧
    (∀ j : Line, (∀ v, i = .evEdge v → rises j v s = false) → t.start[j] = s.start[j]) ∧
    (∀ j : Line, (∀ v, i = .evEdge v → falls j v s = false) → t.dur[j] = s.dur[j]) ∧
    (∀ j : Line, s.pend.getLsbD j = false → t.pend.getLsbD j = true → ∃ v, i = .evEdge v ∧ falls j v s = true) ∧
    (∀ j : Line, s.pend.getLsbD j = true → t.pend.getLsbD j = false → ∃ d, i = .clrPend d ∧ d.getLsbD j = true)

/-- 40_pwm.md section 1 (R64, "no shared-state reads beyond the bit-plane buffer"): the PWM unit reads no register of the two
timing units. 41_tick.md sections 1 and 2, 42_capture.md sections 1 and 2: no operation of the tick timer or of the capture
unit reads a PWM register. So the units never influence each other: whatever the operations, two runs whose PWM registers
agree at the start have PWM registers that agree at the end, and the same of all other registers. -/
def Obligations.PwmAndTimingUnitsAreIsolated : Prop :=
  ∀ (l : List Instr) (s u : State),
    (s.bp = u.bp → s.out = u.out → s.pcnt = u.pcnt → s.pocr = u.pocr → s.plane = u.plane →
      (afterAll l s).bp = (afterAll l u).bp ∧ (afterAll l s).out = (afterAll l u).out ∧
      (afterAll l s).pcnt = (afterAll l u).pcnt ∧ (afterAll l s).pocr = (afterAll l u).pocr ∧
      (afterAll l s).plane = (afterAll l u).plane) ∧
    (s.tick = u.tick → s.frc = u.frc → s.lvl = u.lvl → s.start = u.start → s.dur = u.dur → s.pend = u.pend →
      s.reload = u.reload →
      (afterAll l s).tick = (afterAll l u).tick ∧ (afterAll l s).frc = (afterAll l u).frc ∧
      (afterAll l s).lvl = (afterAll l u).lvl ∧ (afterAll l s).start = (afterAll l u).start ∧
      (afterAll l s).dur = (afterAll l u).dur ∧ (afterAll l s).pend = (afterAll l u).pend)

/-- 20_memory.md section 2 (R36, marked derived in the spec): repeating a read, a WR_BP, a CLR_PEND or an error transaction
leaves the state, response included, as once; each repetition of a SUB_TICK subtracts again, down to 0. -/
def Obligations.HostTransactionsButSubTickAreIdempotent : Prop :=
  ∀ s : State,
    (∀ i : Instr, i.isHost = true → (∀ c d, i ≠ .subTick c d) → after i (after i s) = after i s) ∧
    (∀ (c : Channel) (d : Word),
      (after (.subTick c d) (after (.subTick c d) s)).tick[c].toNat = s.tick[c].toNat - d.toNat - d.toNat)

/-! ### Runs: the tick timer -/

/-- 41_tick.md R74 (marked derived in the spec): in any run without reset, whatever else happens, `N` FRC clocks from phase
`q = FRC - FRC_RELOAD` bring `(q + N) / W` ticks and leave phase `(q + N) mod W`. With `N = W` that is exactly one tick; from
reset (`q = 0`) the first tick is the `W`-th clock. -/
def Obligations.OneTickInEveryWrapPeriod : Prop :=
  ∀ (l : List Instr) (s : State), s.FrcInv → (∀ i ∈ l, i ≠ .evReset) →
    ticksIn l s = (s.frc.toNat - s.reload.toNat + l.count .evFrcclk) / wrapPeriod s.reload ∧
    (afterAll l s).frc.toNat =
      s.reload.toNat + (s.frc.toNat - s.reload.toNat + l.count .evFrcclk) % wrapPeriod s.reload

/-- 41_tick.md R77 (marked derived in the spec): in a run without reset and without a SUB_TICK of counter `c`, the counter
gains exactly the number of ticks, modulo 2^16; the difference of two such counters does not change. -/
def Obligations.TickCountersGainOnePerTick : Prop :=
  ∀ (l : List Instr) (s : State) (c : Channel), (∀ i ∈ l, i ≠ .evReset ∧ ∀ d, i ≠ .subTick c d) →
    (afterAll l s).tick[c].toNat = (s.tick[c].toNat + ticksIn l s) % 65536 ∧
    ∀ e : Channel, (∀ i ∈ l, ∀ d, i ≠ .subTick e d) →
      (afterAll l s).tick[c] - (afterAll l s).tick[e] = s.tick[c] - s.tick[e]

/-- 70_reset_and_hazards.md R114 (marked derived in the spec): a host that reads `t`, then subtracts `d <= t`, with any other
steps between that neither reset nor subtract from the counter, leaves `t + k - d`, `k` the ticks between; the premise
`t + k < 65536` keeps the counter's own wrap out. -/
def Obligations.ReadThenSubtractLosesNoTick : Prop :=
  ∀ (s : State) (c : Channel) (d t : Word) (mid : List Instr),
    (after (.rdTick c) s).resp = some ⟨.ok, some t⟩ → d.toNat ≤ t.toNat →
    (∀ i ∈ mid, i ≠ .evReset ∧ ∀ e, i ≠ .subTick c e) →
    t.toNat + ticksIn mid (after (.rdTick c) s) < 65536 →
    (after (.subTick c d) (afterAll mid (after (.rdTick c) s))).tick[c].toNat =
      t.toNat + ticksIn mid (after (.rdTick c) s) - d.toNat

/-- 70_reset_and_hazards.md R118 with 41_tick.md R74 and 40_pwm.md R62: in every infinite run that is weakly fair and has no
reset, ticks and PWM overflows go on for ever, from any state. -/
def Obligations.FairRunsTickAndOverflowForever : Prop :=
  ∀ (sched : Nat → Instr) (s : State), WeaklyFair sched → (∀ n, sched n ≠ .evReset) → ∀ n : Nat,
    (∃ m, n ≤ m ∧ isTick (sched m) (stateAt sched s m) = true) ∧
    (∃ m, n ≤ m ∧ isOverflow (sched m) (stateAt sched s m) = true)

/-! ### Runs: the PWM scheduler -/

/-- 40_pwm.md R62 (marked derived in the spec): from a state at the end of a cycle, after `k + 1` PWM clocks (`k < 256`) with
any other steps between but reset and plane writes, the count is `k` and OUT shows the plane of the table of R62. -/
def Obligations.OnePwmCycleShowsThePlanesByWeight : Prop :=
  ∀ (l : List Instr) (s : State) (k : Nat), s.Inv → s.pcnt = 0xFF#8 → k < 256 → l.count .evPclk = k + 1 →
    (∀ i ∈ l, i ≠ .evReset ∧ ∀ p d, i ≠ .wrBp p d) →
    (afterAll l s).pcnt.toNat = k ∧ (afterAll l s).out = s.bp[planeShown k].setWidth 7

/-- 40_pwm.md R63 (marked derived in the spec): over one PWM cycle of 256 clocks, with any other steps between but reset and
plane writes, output line `c` is high after exactly `b + BP[0][c]` of the clocks, `b` the brightness byte of channel `c`. -/
def Obligations.DutyOfALineIsItsBrightness : Prop :=
  ∀ (l : List Instr) (s : State) (c : Channel), s.Inv → s.pcnt = 0xFF#8 → l.count .evPclk = 256 →
    (∀ i ∈ l, i ≠ .evReset ∧ ∀ p d, i ≠ .wrBp p d) →
    countsHigh c l s = brightness s.bp c + (s.bp[(0 : PlaneIdx)].getLsbD c).toNat

/-- 70_reset_and_hazards.md R109 (marked derived in the spec): from the reset state "all output lines are low … until the host
writes a bit-plane". -/
def Obligations.OutputsStayLowUntilAPlaneIsWritten : Prop :=
  ∀ l : List Instr, (∀ i ∈ l, ∀ p d, i ≠ .wrBp p d) → (afterAll l State.reset).out = 0#7

/-- 70_reset_and_hazards.md R111 and 30_encoding.md R57: `wrchan c, b`, with any steps of the clocks and the inputs between its
16 transactions, completes, leaves bit `c` of every plane as `b` says and loses no other bit. -/
def Obligations.WrchanReplacesOneChannelAndLosesNoBit : Prop :=
  ∀ (c : Channel) (b : Byte) (s : State) (env : List (List Instr)), (∀ l ∈ env, ∀ i ∈ l, i.isRunning = true) →
    ∃ t : State, (Pseudo.wrchan c b).expand.run env s = .next (none, t) ∧
      ∀ (p : PlaneIdx) (k : Fin 8),
        t.bp[p].getLsbD k = if k.val = c.val then b.getLsbD p else s.bp[p].getLsbD k

/-! ### Runs: pulse capture -/

/-- 42_capture.md R83 (marked derived in the spec): a pulse that rises, then lasts `N` FRC clocks with any other steps between
but reset and levels that end it, then falls, is posted as `N mod W`. -/
def Obligations.PulseIsMeasuredModuloTheWrapPeriod : Prop :=
  ∀ (s : State) (i : Line) (v v' : Lines) (mid : List Instr), s.FrcInv → rises i v s = true →
    (∀ j ∈ mid, j ≠ .evReset ∧ ∀ u, j = .evEdge u → u.getLsbD i = true) → v'.getLsbD i = false →
    let t := after (.evEdge v') (afterAll mid (after (.evEdge v) s))
    t.dur[i].toNat = mid.count .evFrcclk % wrapPeriod s.reload ∧ t.pend.getLsbD i = true

/-- 42_capture.md R86 (marked derived in the spec): in any run from a state with all lines inactive (the reset state among
them), a line that is active at the end rose in this run, after the last reset, stayed active since, and START holds the
time stamp of that rise: "the reset value of START[i] is never an operand" of a measurement. -/
def Obligations.StartIsDefinedWheneverALineIsActive : Prop :=
  ∀ (l : List Instr) (s : State) (i : Line), s.lvl = 0#3 → (afterAll l s).lvl.getLsbD i = true →
    ∃ (pre : List Instr) (v : Lines) (post : List Instr),
      l = pre ++ .evEdge v :: post ∧ rises i v (afterAll pre s) = true ∧
      (∀ j ∈ post, j ≠ .evReset ∧ ∀ u, j = .evEdge u → u.getLsbD i = true) ∧
      (afterAll l s).start[i] = (afterAll pre s).frc

/-- 70_reset_and_hazards.md R112 (marked derived in the spec): a falling edge that lands after the host's RD_DUR and before its
CLR_PEND posts a sample (its duration as R82 measures it, in the model's `elapsed`) whose flag is cleared unseen: the host read the
older one. -/
def Obligations.LateClearLosesTheNewerSample : Prop :=
  ∀ (s : State) (i : Line) (v : Lines) (d : Word), falls i v s = true → d.getLsbD i = true →
    let r := after (.rdDur i) s
    let f := after (.evEdge v) r
    let t := after (.clrPend d) f
    r.resp = some ⟨.ok, some s.dur[i]⟩ ∧ f.dur[i] = elapsed s.reload s.start[i] s.frc ∧ f.pend.getLsbD i = true ∧
      t.pend.getLsbD i = false ∧ t.dur[i] = f.dur[i]

/-- 30_encoding.md R57: `consume i` with no step of another agent between its transactions returns the duration and clears
that flag alone if a sample is pending, and does nothing if none is. -/
def Obligations.ConsumeTakesThePendingSample : Prop :=
  ∀ (s : State) (i : Line), ∃ (r : Option Word) (t : State),
    (Pseudo.consume i).expand.run [] s = .next (r, t) ∧
    r = (if s.pend.getLsbD i then some s.dur[i] else none) ∧
    (∀ j : Line, t.pend.getLsbD j = (s.pend.getLsbD j && decide (j ≠ i))) ∧
    { t with pend := s.pend, resp := s.resp } = s

/-! ### Host programs -/

/-- 60_exceptions.md section 1 (R97): a host program treats an ERR "as a fault of that program and never clear[s] it": an
operation faults exactly if it is answered ERR, with the block in the state it leaves; a script ends there, whatever it
would present next; and a refused word "is not an error of the block", so it stays a refusal. That every ERR is a fault,
and that the fault holds the state, is the model's reading (log entry 14). -/
def Obligations.AnErrIsAFaultOfTheHostProgram : Prop :=
  ∀ s : State,
    (∀ i : Instr, i.answersErr = true → hostExec i s = .fault (.errResponse (after i s))) ∧
    (∀ i : Instr, i.answersErr = false → hostExec i s = .next (after i s)) ∧
    (∀ (i : Instr) (env : List (List Instr)), i.answersErr = true →
      (∀ k : Script, (Script.emit i k).run env s = .fault (.errResponse (after i (afterAll (env.headD []) s)))) ∧
      (∀ k : Word → Script, (Script.ask i k).run env s = .fault (.errResponse (after i (afterAll (env.headD []) s))))) ∧
    (∀ why : Refusal, step s = .refused why → hostStep s = .refused why)

/-- 60_exceptions.md section 1 (R97), over runs: a host program that presents an error transaction after operations that are
none faults there, with the block in the state left; and whatever words follow, and however many steps are asked for,
nothing clears the fault. That every ERR is a fault is the model's reading (log entry 14). -/
def Obligations.AHostProgramStopsAtItsFirstErrForGood : Prop :=
  ∀ (l : List Instr) (i : Instr) (s : State) (rest : List TxWord) (n : Nat),
    (∀ j ∈ l, j.wf = true ∧ j.answersErr = false) → i.wf = true → i.answersErr = true →
    hostCore.run (l.length + 1 + n) { s with pending := l.map encode ++ encode i :: rest } =
      .fault (.errResponse (after i (afterAll l { s with pending := rest })))

/-- 60_exceptions.md section 1 (R97): a schedule of operations is a safe run exactly if no operation of it is answered ERR;
and whatever words a state holds, a run that a host program completes is the block's own run. That every ERR is a fault, so
that a run completed has none in it, is the model's reading (log entry 14). -/
def Obligations.SafeRunsAreTheRunsWithoutAnErr : Prop :=
  (∀ (l : List Instr) (s : State) (rest : List TxWord), (∀ i ∈ l, i.wf = true) →
    (SafeRun l.length { s with pending := l.map encode ++ rest } ↔ ∀ i ∈ l, i.answersErr = false)) ∧
  ∀ (n : Nat) (s t : State), hostCore.run n s = .next t → Sys2Proof.core.run n s = .next t
end

