-- ==== Sys2Proof/Laws/Encoding.lean ====
section
/-! SUPPORT. The fields of the words the three formats lay out (30_encoding.md R47 to R50), the register map and its
inverse, for the provers of the encoding statements. -/

namespace Sys2Proof

/-! ### Fields of a concatenation -/

variable (k : BitVec 2) (e : BitVec 6) (a : Addr) (d : Word)

theorem fieldK_append : fieldK (k ++ e ++ a ++ d) = k := by
  ext i hi
  simp only [fieldK, BitVec.getElem_extractLsb', BitVec.getLsbD_append]
  interval_cases i <;> simp

theorem fieldE_append : fieldE (k ++ e ++ a ++ d) = e := by
  ext i hi
  simp only [fieldE, BitVec.getElem_extractLsb', BitVec.getLsbD_append]
  interval_cases i <;> simp

theorem fieldA_append : fieldA (k ++ e ++ a ++ d) = a := by
  ext i hi
  simp only [fieldA, BitVec.getElem_extractLsb', BitVec.getLsbD_append]
  interval_cases i <;> simp

theorem fieldD_append : fieldD (k ++ e ++ a ++ d) = d := by
  ext i hi
  simp only [fieldD, BitVec.getElem_extractLsb', BitVec.getLsbD_append]
  interval_cases i <;> simp

/-- A word is the concatenation of its fields. -/
theorem append_fields (w : TxWord) : fieldK w ++ fieldE w ++ fieldA w ++ fieldD w = w := by
  ext i hi
  simp only [fieldK, fieldE, fieldA, fieldD, BitVec.getElem_append, BitVec.getElem_extractLsb']
  interval_cases i <;> simp

/-- Masking field by field: a word laid out from its fields matches a pattern under a mask exactly if each field does. -/
theorem append_and_eq_iff (mk pk : BitVec 2) (me pe : BitVec 6) (ma pa : Addr) (md pd : Word) :
    (k ++ e ++ a ++ d) &&& (mk ++ me ++ ma ++ md) = pk ++ pe ++ pa ++ pd ↔
      k &&& mk = pk ∧ e &&& me = pe ∧ a &&& ma = pa ∧ d &&& md = pd := by
  rw [BitVec.and_append, BitVec.and_append, BitVec.and_append]
  constructor
  · intro h
    have hk := congrArg fieldK h
    have he := congrArg fieldE h
    have ha := congrArg fieldA h
    have hd := congrArg fieldD h
    simp only [fieldK_append, fieldE_append, fieldA_append, fieldD_append] at hk he ha hd
    exact ⟨hk, he, ha, hd⟩
  · rintro ⟨rfl, rfl, rfl, rfl⟩
    rfl

theorem fieldV_eq (w : TxWord) : fieldV w = (fieldD w).extractLsb' 0 3 := by
  ext i hi
  simp [fieldV, fieldD]

theorem fieldHigh_eq (w : TxWord) : fieldHigh w = (fieldD w).extractLsb' 3 13 := by
  ext i hi
  simp [fieldHigh, fieldD]

/-! ### The register map and its inverse -/

theorem regAt_addr (r : Reg) : regAt r.addr = some r := by
  cases r with
  | bp p => revert p; decide
  | tick c => revert c; decide
  | dur i => revert i; decide
  | start i => revert i; decide
  | _ => decide

end Sys2Proof
end

