-- ==== Sys2Proof/Laws/State.lean ====
section
/-! SUPPORT. One lemma per field per update of State, so that no later proof unfolds a record update. -/

namespace Sys2Proof.Machine.State

variable (s : State)

@[simp] theorem setBp_bp (p : PlaneIdx) (b : Byte) : (s.setBp p b).bp = s.bp.set p.val b p.isLt := rfl
@[simp] theorem setBp_out (p : PlaneIdx) (b : Byte) : (s.setBp p b).out = s.out := rfl
@[simp] theorem setBp_pcnt (p : PlaneIdx) (b : Byte) : (s.setBp p b).pcnt = s.pcnt := rfl
@[simp] theorem setBp_pocr (p : PlaneIdx) (b : Byte) : (s.setBp p b).pocr = s.pocr := rfl
@[simp] theorem setBp_plane (p : PlaneIdx) (b : Byte) : (s.setBp p b).plane = s.plane := rfl
@[simp] theorem setBp_tick (p : PlaneIdx) (b : Byte) : (s.setBp p b).tick = s.tick := rfl
@[simp] theorem setBp_frc (p : PlaneIdx) (b : Byte) : (s.setBp p b).frc = s.frc := rfl
@[simp] theorem setBp_lvl (p : PlaneIdx) (b : Byte) : (s.setBp p b).lvl = s.lvl := rfl
@[simp] theorem setBp_start (p : PlaneIdx) (b : Byte) : (s.setBp p b).start = s.start := rfl
@[simp] theorem setBp_dur (p : PlaneIdx) (b : Byte) : (s.setBp p b).dur = s.dur := rfl
@[simp] theorem setBp_pend (p : PlaneIdx) (b : Byte) : (s.setBp p b).pend = s.pend := rfl
@[simp] theorem setBp_reload (p : PlaneIdx) (b : Byte) : (s.setBp p b).reload = s.reload := rfl
@[simp] theorem setBp_pending (p : PlaneIdx) (b : Byte) : (s.setBp p b).pending = s.pending := rfl
@[simp] theorem setBp_resp (p : PlaneIdx) (b : Byte) : (s.setBp p b).resp = s.resp := rfl

@[simp] theorem setOut_bp (v : BitVec 7) : (s.setOut v).bp = s.bp := rfl
@[simp] theorem setOut_out (v : BitVec 7) : (s.setOut v).out = v := rfl
@[simp] theorem setOut_pcnt (v : BitVec 7) : (s.setOut v).pcnt = s.pcnt := rfl
@[simp] theorem setOut_pocr (v : BitVec 7) : (s.setOut v).pocr = s.pocr := rfl
@[simp] theorem setOut_plane (v : BitVec 7) : (s.setOut v).plane = s.plane := rfl
@[simp] theorem setOut_tick (v : BitVec 7) : (s.setOut v).tick = s.tick := rfl
@[simp] theorem setOut_frc (v : BitVec 7) : (s.setOut v).frc = s.frc := rfl
@[simp] theorem setOut_lvl (v : BitVec 7) : (s.setOut v).lvl = s.lvl := rfl
@[simp] theorem setOut_start (v : BitVec 7) : (s.setOut v).start = s.start := rfl
@[simp] theorem setOut_dur (v : BitVec 7) : (s.setOut v).dur = s.dur := rfl
@[simp] theorem setOut_pend (v : BitVec 7) : (s.setOut v).pend = s.pend := rfl
@[simp] theorem setOut_reload (v : BitVec 7) : (s.setOut v).reload = s.reload := rfl
@[simp] theorem setOut_pending (v : BitVec 7) : (s.setOut v).pending = s.pending := rfl
@[simp] theorem setOut_resp (v : BitVec 7) : (s.setOut v).resp = s.resp := rfl

@[simp] theorem setPcnt_bp (v : BitVec 8) : (s.setPcnt v).bp = s.bp := rfl
@[simp] theorem setPcnt_out (v : BitVec 8) : (s.setPcnt v).out = s.out := rfl
@[simp] theorem setPcnt_pcnt (v : BitVec 8) : (s.setPcnt v).pcnt = v := rfl
@[simp] theorem setPcnt_pocr (v : BitVec 8) : (s.setPcnt v).pocr = s.pocr := rfl
@[simp] theorem setPcnt_plane (v : BitVec 8) : (s.setPcnt v).plane = s.plane := rfl
@[simp] theorem setPcnt_tick (v : BitVec 8) : (s.setPcnt v).tick = s.tick := rfl
@[simp] theorem setPcnt_frc (v : BitVec 8) : (s.setPcnt v).frc = s.frc := rfl
@[simp] theorem setPcnt_lvl (v : BitVec 8) : (s.setPcnt v).lvl = s.lvl := rfl
@[simp] theorem setPcnt_start (v : BitVec 8) : (s.setPcnt v).start = s.start := rfl
@[simp] theorem setPcnt_dur (v : BitVec 8) : (s.setPcnt v).dur = s.dur := rfl
@[simp] theorem setPcnt_pend (v : BitVec 8) : (s.setPcnt v).pend = s.pend := rfl
@[simp] theorem setPcnt_reload (v : BitVec 8) : (s.setPcnt v).reload = s.reload := rfl
@[simp] theorem setPcnt_pending (v : BitVec 8) : (s.setPcnt v).pending = s.pending := rfl
@[simp] theorem setPcnt_resp (v : BitVec 8) : (s.setPcnt v).resp = s.resp := rfl

@[simp] theorem setPocr_bp (v : BitVec 8) : (s.setPocr v).bp = s.bp := rfl
@[simp] theorem setPocr_out (v : BitVec 8) : (s.setPocr v).out = s.out := rfl
@[simp] theorem setPocr_pcnt (v : BitVec 8) : (s.setPocr v).pcnt = s.pcnt := rfl
@[simp] theorem setPocr_pocr (v : BitVec 8) : (s.setPocr v).pocr = v := rfl
@[simp] theorem setPocr_plane (v : BitVec 8) : (s.setPocr v).plane = s.plane := rfl
@[simp] theorem setPocr_tick (v : BitVec 8) : (s.setPocr v).tick = s.tick := rfl
@[simp] theorem setPocr_frc (v : BitVec 8) : (s.setPocr v).frc = s.frc := rfl
@[simp] theorem setPocr_lvl (v : BitVec 8) : (s.setPocr v).lvl = s.lvl := rfl
@[simp] theorem setPocr_start (v : BitVec 8) : (s.setPocr v).start = s.start := rfl
@[simp] theorem setPocr_dur (v : BitVec 8) : (s.setPocr v).dur = s.dur := rfl
@[simp] theorem setPocr_pend (v : BitVec 8) : (s.setPocr v).pend = s.pend := rfl
@[simp] theorem setPocr_reload (v : BitVec 8) : (s.setPocr v).reload = s.reload := rfl
@[simp] theorem setPocr_pending (v : BitVec 8) : (s.setPocr v).pending = s.pending := rfl
@[simp] theorem setPocr_resp (v : BitVec 8) : (s.setPocr v).resp = s.resp := rfl

@[simp] theorem setPlane_bp (v : BitVec 3) : (s.setPlane v).bp = s.bp := rfl
@[simp] theorem setPlane_out (v : BitVec 3) : (s.setPlane v).out = s.out := rfl
@[simp] theorem setPlane_pcnt (v : BitVec 3) : (s.setPlane v).pcnt = s.pcnt := rfl
@[simp] theorem setPlane_pocr (v : BitVec 3) : (s.setPlane v).pocr = s.pocr := rfl
@[simp] theorem setPlane_plane (v : BitVec 3) : (s.setPlane v).plane = v := rfl
@[simp] theorem setPlane_tick (v : BitVec 3) : (s.setPlane v).tick = s.tick := rfl
@[simp] theorem setPlane_frc (v : BitVec 3) : (s.setPlane v).frc = s.frc := rfl
@[simp] theorem setPlane_lvl (v : BitVec 3) : (s.setPlane v).lvl = s.lvl := rfl
@[simp] theorem setPlane_start (v : BitVec 3) : (s.setPlane v).start = s.start := rfl
@[simp] theorem setPlane_dur (v : BitVec 3) : (s.setPlane v).dur = s.dur := rfl
@[simp] theorem setPlane_pend (v : BitVec 3) : (s.setPlane v).pend = s.pend := rfl
@[simp] theorem setPlane_reload (v : BitVec 3) : (s.setPlane v).reload = s.reload := rfl
@[simp] theorem setPlane_pending (v : BitVec 3) : (s.setPlane v).pending = s.pending := rfl
@[simp] theorem setPlane_resp (v : BitVec 3) : (s.setPlane v).resp = s.resp := rfl

@[simp] theorem setTick_bp (c : Channel) (v : Word) : (s.setTick c v).bp = s.bp := rfl
@[simp] theorem setTick_out (c : Channel) (v : Word) : (s.setTick c v).out = s.out := rfl
@[simp] theorem setTick_pcnt (c : Channel) (v : Word) : (s.setTick c v).pcnt = s.pcnt := rfl
@[simp] theorem setTick_pocr (c : Channel) (v : Word) : (s.setTick c v).pocr = s.pocr := rfl
@[simp] theorem setTick_plane (c : Channel) (v : Word) : (s.setTick c v).plane = s.plane := rfl
@[simp] theorem setTick_tick (c : Channel) (v : Word) : (s.setTick c v).tick = s.tick.set c.val v c.isLt := rfl
@[simp] theorem setTick_frc (c : Channel) (v : Word) : (s.setTick c v).frc = s.frc := rfl
@[simp] theorem setTick_lvl (c : Channel) (v : Word) : (s.setTick c v).lvl = s.lvl := rfl
@[simp] theorem setTick_start (c : Channel) (v : Word) : (s.setTick c v).start = s.start := rfl
@[simp] theorem setTick_dur (c : Channel) (v : Word) : (s.setTick c v).dur = s.dur := rfl
@[simp] theorem setTick_pend (c : Channel) (v : Word) : (s.setTick c v).pend = s.pend := rfl
@[simp] theorem setTick_reload (c : Channel) (v : Word) : (s.setTick c v).reload = s.reload := rfl
@[simp] theorem setTick_pending (c : Channel) (v : Word) : (s.setTick c v).pending = s.pending := rfl
@[simp] theorem setTick_resp (c : Channel) (v : Word) : (s.setTick c v).resp = s.resp := rfl

@[simp] theorem setTicks_bp (v : Vector Word 7) : (s.setTicks v).bp = s.bp := rfl
@[simp] theorem setTicks_out (v : Vector Word 7) : (s.setTicks v).out = s.out := rfl
@[simp] theorem setTicks_pcnt (v : Vector Word 7) : (s.setTicks v).pcnt = s.pcnt := rfl
@[simp] theorem setTicks_pocr (v : Vector Word 7) : (s.setTicks v).pocr = s.pocr := rfl
@[simp] theorem setTicks_plane (v : Vector Word 7) : (s.setTicks v).plane = s.plane := rfl
@[simp] theorem setTicks_tick (v : Vector Word 7) : (s.setTicks v).tick = v := rfl
@[simp] theorem setTicks_frc (v : Vector Word 7) : (s.setTicks v).frc = s.frc := rfl
@[simp] theorem setTicks_lvl (v : Vector Word 7) : (s.setTicks v).lvl = s.lvl := rfl
@[simp] theorem setTicks_start (v : Vector Word 7) : (s.setTicks v).start = s.start := rfl
@[simp] theorem setTicks_dur (v : Vector Word 7) : (s.setTicks v).dur = s.dur := rfl
@[simp] theorem setTicks_pend (v : Vector Word 7) : (s.setTicks v).pend = s.pend := rfl
@[simp] theorem setTicks_reload (v : Vector Word 7) : (s.setTicks v).reload = s.reload := rfl
@[simp] theorem setTicks_pending (v : Vector Word 7) : (s.setTicks v).pending = s.pending := rfl
@[simp] theorem setTicks_resp (v : Vector Word 7) : (s.setTicks v).resp = s.resp := rfl

@[simp] theorem setFrc_bp (v : Word) : (s.setFrc v).bp = s.bp := rfl
@[simp] theorem setFrc_out (v : Word) : (s.setFrc v).out = s.out := rfl
@[simp] theorem setFrc_pcnt (v : Word) : (s.setFrc v).pcnt = s.pcnt := rfl
@[simp] theorem setFrc_pocr (v : Word) : (s.setFrc v).pocr = s.pocr := rfl
@[simp] theorem setFrc_plane (v : Word) : (s.setFrc v).plane = s.plane := rfl
@[simp] theorem setFrc_tick (v : Word) : (s.setFrc v).tick = s.tick := rfl
@[simp] theorem setFrc_frc (v : Word) : (s.setFrc v).frc = v := rfl
@[simp] theorem setFrc_lvl (v : Word) : (s.setFrc v).lvl = s.lvl := rfl
@[simp] theorem setFrc_start (v : Word) : (s.setFrc v).start = s.start := rfl
@[simp] theorem setFrc_dur (v : Word) : (s.setFrc v).dur = s.dur := rfl
@[simp] theorem setFrc_pend (v : Word) : (s.setFrc v).pend = s.pend := rfl
@[simp] theorem setFrc_reload (v : Word) : (s.setFrc v).reload = s.reload := rfl
@[simp] theorem setFrc_pending (v : Word) : (s.setFrc v).pending = s.pending := rfl
@[simp] theorem setFrc_resp (v : Word) : (s.setFrc v).resp = s.resp := rfl

@[simp] theorem setLvl_bp (v : Lines) : (s.setLvl v).bp = s.bp := rfl
@[simp] theorem setLvl_out (v : Lines) : (s.setLvl v).out = s.out := rfl
@[simp] theorem setLvl_pcnt (v : Lines) : (s.setLvl v).pcnt = s.pcnt := rfl
@[simp] theorem setLvl_pocr (v : Lines) : (s.setLvl v).pocr = s.pocr := rfl
@[simp] theorem setLvl_plane (v : Lines) : (s.setLvl v).plane = s.plane := rfl
@[simp] theorem setLvl_tick (v : Lines) : (s.setLvl v).tick = s.tick := rfl
@[simp] theorem setLvl_frc (v : Lines) : (s.setLvl v).frc = s.frc := rfl
@[simp] theorem setLvl_lvl (v : Lines) : (s.setLvl v).lvl = v := rfl
@[simp] theorem setLvl_start (v : Lines) : (s.setLvl v).start = s.start := rfl
@[simp] theorem setLvl_dur (v : Lines) : (s.setLvl v).dur = s.dur := rfl
@[simp] theorem setLvl_pend (v : Lines) : (s.setLvl v).pend = s.pend := rfl
@[simp] theorem setLvl_reload (v : Lines) : (s.setLvl v).reload = s.reload := rfl
@[simp] theorem setLvl_pending (v : Lines) : (s.setLvl v).pending = s.pending := rfl
@[simp] theorem setLvl_resp (v : Lines) : (s.setLvl v).resp = s.resp := rfl

@[simp] theorem setStart_bp (i : Line) (v : Word) : (s.setStart i v).bp = s.bp := rfl
@[simp] theorem setStart_out (i : Line) (v : Word) : (s.setStart i v).out = s.out := rfl
@[simp] theorem setStart_pcnt (i : Line) (v : Word) : (s.setStart i v).pcnt = s.pcnt := rfl
@[simp] theorem setStart_pocr (i : Line) (v : Word) : (s.setStart i v).pocr = s.pocr := rfl
@[simp] theorem setStart_plane (i : Line) (v : Word) : (s.setStart i v).plane = s.plane := rfl
@[simp] theorem setStart_tick (i : Line) (v : Word) : (s.setStart i v).tick = s.tick := rfl
@[simp] theorem setStart_frc (i : Line) (v : Word) : (s.setStart i v).frc = s.frc := rfl
@[simp] theorem setStart_lvl (i : Line) (v : Word) : (s.setStart i v).lvl = s.lvl := rfl
@[simp] theorem setStart_start (i : Line) (v : Word) : (s.setStart i v).start = s.start.set i.val v i.isLt := rfl
@[simp] theorem setStart_dur (i : Line) (v : Word) : (s.setStart i v).dur = s.dur := rfl
@[simp] theorem setStart_pend (i : Line) (v : Word) : (s.setStart i v).pend = s.pend := rfl
@[simp] theorem setStart_reload (i : Line) (v : Word) : (s.setStart i v).reload = s.reload := rfl
@[simp] theorem setStart_pending (i : Line) (v : Word) : (s.setStart i v).pending = s.pending := rfl
@[simp] theorem setStart_resp (i : Line) (v : Word) : (s.setStart i v).resp = s.resp := rfl

@[simp] theorem setDur_bp (i : Line) (v : Word) : (s.setDur i v).bp = s.bp := rfl
@[simp] theorem setDur_out (i : Line) (v : Word) : (s.setDur i v).out = s.out := rfl
@[simp] theorem setDur_pcnt (i : Line) (v : Word) : (s.setDur i v).pcnt = s.pcnt := rfl
@[simp] theorem setDur_pocr (i : Line) (v : Word) : (s.setDur i v).pocr = s.pocr := rfl
@[simp] theorem setDur_plane (i : Line) (v : Word) : (s.setDur i v).plane = s.plane := rfl
@[simp] theorem setDur_tick (i : Line) (v : Word) : (s.setDur i v).tick = s.tick := rfl
@[simp] theorem setDur_frc (i : Line) (v : Word) : (s.setDur i v).frc = s.frc := rfl
@[simp] theorem setDur_lvl (i : Line) (v : Word) : (s.setDur i v).lvl = s.lvl := rfl
@[simp] theorem setDur_start (i : Line) (v : Word) : (s.setDur i v).start = s.start := rfl
@[simp] theorem setDur_dur (i : Line) (v : Word) : (s.setDur i v).dur = s.dur.set i.val v i.isLt := rfl
@[simp] theorem setDur_pend (i : Line) (v : Word) : (s.setDur i v).pend = s.pend := rfl
@[simp] theorem setDur_reload (i : Line) (v : Word) : (s.setDur i v).reload = s.reload := rfl
@[simp] theorem setDur_pending (i : Line) (v : Word) : (s.setDur i v).pending = s.pending := rfl
@[simp] theorem setDur_resp (i : Line) (v : Word) : (s.setDur i v).resp = s.resp := rfl

@[simp] theorem setPend_bp (v : Lines) : (s.setPend v).bp = s.bp := rfl
@[simp] theorem setPend_out (v : Lines) : (s.setPend v).out = s.out := rfl
@[simp] theorem setPend_pcnt (v : Lines) : (s.setPend v).pcnt = s.pcnt := rfl
@[simp] theorem setPend_pocr (v : Lines) : (s.setPend v).pocr = s.pocr := rfl
@[simp] theorem setPend_plane (v : Lines) : (s.setPend v).plane = s.plane := rfl
@[simp] theorem setPend_tick (v : Lines) : (s.setPend v).tick = s.tick := rfl
@[simp] theorem setPend_frc (v : Lines) : (s.setPend v).frc = s.frc := rfl
@[simp] theorem setPend_lvl (v : Lines) : (s.setPend v).lvl = s.lvl := rfl
@[simp] theorem setPend_start (v : Lines) : (s.setPend v).start = s.start := rfl
@[simp] theorem setPend_dur (v : Lines) : (s.setPend v).dur = s.dur := rfl
@[simp] theorem setPend_pend (v : Lines) : (s.setPend v).pend = v := rfl
@[simp] theorem setPend_reload (v : Lines) : (s.setPend v).reload = s.reload := rfl
@[simp] theorem setPend_pending (v : Lines) : (s.setPend v).pending = s.pending := rfl
@[simp] theorem setPend_resp (v : Lines) : (s.setPend v).resp = s.resp := rfl

@[simp] theorem setPending_bp (ws : List TxWord) : (s.setPending ws).bp = s.bp := rfl
@[simp] theorem setPending_out (ws : List TxWord) : (s.setPending ws).out = s.out := rfl
@[simp] theorem setPending_pcnt (ws : List TxWord) : (s.setPending ws).pcnt = s.pcnt := rfl
@[simp] theorem setPending_pocr (ws : List TxWord) : (s.setPending ws).pocr = s.pocr := rfl
@[simp] theorem setPending_plane (ws : List TxWord) : (s.setPending ws).plane = s.plane := rfl
@[simp] theorem setPending_tick (ws : List TxWord) : (s.setPending ws).tick = s.tick := rfl
@[simp] theorem setPending_frc (ws : List TxWord) : (s.setPending ws).frc = s.frc := rfl
@[simp] theorem setPending_lvl (ws : List TxWord) : (s.setPending ws).lvl = s.lvl := rfl
@[simp] theorem setPending_start (ws : List TxWord) : (s.setPending ws).start = s.start := rfl
@[simp] theorem setPending_dur (ws : List TxWord) : (s.setPending ws).dur = s.dur := rfl
@[simp] theorem setPending_pend (ws : List TxWord) : (s.setPending ws).pend = s.pend := rfl
@[simp] theorem setPending_reload (ws : List TxWord) : (s.setPending ws).reload = s.reload := rfl
@[simp] theorem setPending_pending (ws : List TxWord) : (s.setPending ws).pending = ws := rfl
@[simp] theorem setPending_resp (ws : List TxWord) : (s.setPending ws).resp = s.resp := rfl

@[simp] theorem setResp_bp (r : Option BusResponse) : (s.setResp r).bp = s.bp := rfl
@[simp] theorem setResp_out (r : Option BusResponse) : (s.setResp r).out = s.out := rfl
@[simp] theorem setResp_pcnt (r : Option BusResponse) : (s.setResp r).pcnt = s.pcnt := rfl
@[simp] theorem setResp_pocr (r : Option BusResponse) : (s.setResp r).pocr = s.pocr := rfl
@[simp] theorem setResp_plane (r : Option BusResponse) : (s.setResp r).plane = s.plane := rfl
@[simp] theorem setResp_tick (r : Option BusResponse) : (s.setResp r).tick = s.tick := rfl
@[simp] theorem setResp_frc (r : Option BusResponse) : (s.setResp r).frc = s.frc := rfl
@[simp] theorem setResp_lvl (r : Option BusResponse) : (s.setResp r).lvl = s.lvl := rfl
@[simp] theorem setResp_start (r : Option BusResponse) : (s.setResp r).start = s.start := rfl
@[simp] theorem setResp_dur (r : Option BusResponse) : (s.setResp r).dur = s.dur := rfl
@[simp] theorem setResp_pend (r : Option BusResponse) : (s.setResp r).pend = s.pend := rfl
@[simp] theorem setResp_reload (r : Option BusResponse) : (s.setResp r).reload = s.reload := rfl
@[simp] theorem setResp_pending (r : Option BusResponse) : (s.setResp r).pending = s.pending := rfl
@[simp] theorem setResp_resp (r : Option BusResponse) : (s.setResp r).resp = r := rfl

end Sys2Proof.Machine.State

namespace Sys2Proof.Machine

variable (s : State)

@[simp] theorem resetBlock_bp : (resetBlock s).bp = Vector.replicate 8 0#8 := rfl
@[simp] theorem resetBlock_out : (resetBlock s).out = 0#7 := rfl
@[simp] theorem resetBlock_pcnt : (resetBlock s).pcnt = 0#8 := rfl
@[simp] theorem resetBlock_pocr : (resetBlock s).pocr = 2#8 := rfl
@[simp] theorem resetBlock_plane : (resetBlock s).plane = 1#3 := rfl
@[simp] theorem resetBlock_tick : (resetBlock s).tick = Vector.replicate 7 0#16 := rfl
@[simp] theorem resetBlock_frc : (resetBlock s).frc = s.reload := rfl
@[simp] theorem resetBlock_lvl : (resetBlock s).lvl = 0#3 := rfl
@[simp] theorem resetBlock_start : (resetBlock s).start = Vector.replicate 3 0#16 := rfl
@[simp] theorem resetBlock_dur : (resetBlock s).dur = Vector.replicate 3 0#16 := rfl
@[simp] theorem resetBlock_pend : (resetBlock s).pend = 0#3 := rfl
@[simp] theorem resetBlock_reload : (resetBlock s).reload = s.reload := rfl
@[simp] theorem resetBlock_pending : (resetBlock s).pending = s.pending := rfl
@[simp] theorem resetBlock_resp : (resetBlock s).resp = s.resp := rfl

end Sys2Proof.Machine
end

