-- ==== Sys2Proof/Laws/Ops.lean ====
section
/-! SUPPORT. One lemma per shared operation that says what it does, for the provers to cite instead of unfolding it. -/

namespace Sys2Proof.Machine

/-! ### Arithmetic and flags -/

theorem satSub_toNat (a b : Word) : (satSub a b).toNat = a.toNat - b.toNat := by
  unfold satSub
  split
  · exact BitVec.toNat_sub_of_le ‹_›
  · simp only [BitVec.le_def] at *
    simp
    omega

theorem raisePend_getLsbD (p : Lines) (i j : Line) :
    (raisePend p i).getLsbD j = (p.getLsbD j || decide (j = i)) := by
  revert p i j
  decide

theorem pendMask_getLsbD (d : Word) (i : Line) : (pendMask d).getLsbD i = d.getLsbD i := by
  simp [pendMask]

theorem clearPend_getLsbD (p : Lines) (d : Word) (i : Line) :
    (clearPend p d).getLsbD i = (p.getLsbD i && !d.getLsbD i) := by
  simp only [clearPend, BitVec.getLsbD_and, BitVec.getLsbD_not, pendMask_getLsbD, i.isLt, decide_true, Bool.true_and]

theorem lines_ext {a b : Lines} (h : ∀ i : Line, a.getLsbD i = b.getLsbD i) : a = b :=
  BitVec.eq_of_getLsbD_eq fun i hi => h ⟨i, hi⟩

/-- The elapsed time in exact integers. -/
theorem elapsed_toNat (reload start now : Word) :
    (elapsed reload start now).toNat =
      if start.toNat ≤ now.toNat then now.toNat - start.toNat
      else (2 * 65536 + now.toNat - start.toNat - reload.toNat) % 65536 := by
  have := start.isLt
  have := reload.isLt
  change (if start ≤ now then now - start else now - start - reload).toNat = _
  simp only [BitVec.le_def]
  split
  · exact BitVec.toNat_sub_of_le ‹_›
  · simp only [BitVec.toNat_sub]
    omega

/-- The elapsed time between two phases of the counter, at most one wrap apart, is their difference modulo the wrap
period. -/
theorem elapsed_of_phases (reload start now : Word) (hs : reload ≤ start) (hn : reload ≤ now) :
    (elapsed reload start now).toNat =
      (wrapPeriod reload + (now.toNat - reload.toNat) - (start.toNat - reload.toNat)) % wrapPeriod reload := by
  have := start.isLt
  have := now.isLt
  rw [elapsed_toNat, wrapPeriod]
  rw [BitVec.le_def] at hs hn
  split
  · rw [show 65536 - reload.toNat + (now.toNat - reload.toNat) - (start.toNat - reload.toNat)
        = 65536 - reload.toNat + (now.toNat - start.toNat) by omega, Nat.add_mod_left, Nat.mod_eq_of_lt (by omega)]
  · rw [Nat.mod_eq_sub_mod (by omega), Nat.mod_eq_of_lt (by omega), Nat.mod_eq_of_lt (by omega)]
    omega

/-! ### PWM -/

theorem outLines_eq (b : Byte) : outLines b = b.setWidth 7 := by
  ext i hi
  simp [outLines]

theorem pwmClock_overflow (s : State) (h : s.pcnt = 0xFF#8) : pwmClock s = (overflowEvent s).setPcnt 0#8 := by
  simp [pwmClock, h]

theorem pwmClock_compare (s : State) (h0 : s.pcnt + 1#8 ≠ 0#8) (h : s.pcnt + 1#8 = s.pocr) :
    pwmClock s = (compareEvent s).setPcnt (s.pcnt + 1#8) := by
  simp only [pwmClock, if_neg h0, if_pos h]

theorem pwmClock_plain (s : State) (h0 : s.pcnt + 1#8 ≠ 0#8) (h : s.pcnt + 1#8 ≠ s.pocr) :
    pwmClock s = s.setPcnt (s.pcnt + 1#8) := by
  simp only [pwmClock, if_neg h0, if_neg h]

/-- What a PWM clock can do, said once. -/
theorem pwmClock_cases (s : State) :
    (s.pcnt = 0xFF#8 ∧ pwmClock s = (overflowEvent s).setPcnt 0#8) ∨
    (s.pcnt + 1#8 ≠ 0#8 ∧ s.pcnt + 1#8 = s.pocr ∧ pwmClock s = (compareEvent s).setPcnt (s.pcnt + 1#8)) ∨
    (s.pcnt + 1#8 ≠ 0#8 ∧ s.pcnt + 1#8 ≠ s.pocr ∧ pwmClock s = s.setPcnt (s.pcnt + 1#8)) := by
  by_cases h0 : s.pcnt + 1#8 = 0#8
  · have h : s.pcnt = 0xFF#8 := by bv_omega
    exact .inl ⟨h, pwmClock_overflow s h⟩
  · by_cases h : s.pcnt + 1#8 = s.pocr
    · exact .inr (.inl ⟨h0, h, pwmClock_compare s h0 h⟩)
    · exact .inr (.inr ⟨h0, h, pwmClock_plain s h0 h⟩)

/-! ### The free-running counter -/

theorem frcClock_wrap (s : State) (h : s.frc = 0xFFFF#16) : frcClock s = (tickAll s).setFrc s.reload := by
  simp only [frcClock, if_pos h]

theorem frcClock_count (s : State) (h : s.frc ≠ 0xFFFF#16) : frcClock s = s.setFrc (s.frc + 1#16) := by
  simp only [frcClock, if_neg h]

theorem tickAll_tick (s : State) (c : Channel) : (tickAll s).tick[c] = s.tick[c] + 1#16 := by
  simp [tickAll]

/-! ### Edges: one line -/

section
variable (ch v : Lines) (now : Word) (s : State) (i j : Line)

theorem lineEvent_rise (h1 : ch.getLsbD i = true) (h2 : v.getLsbD i = true) :
    lineEvent ch v now s i = s.setStart i now := by
  simp only [lineEvent, risingEdge, h1, h2, Bool.and_self, if_true]

theorem lineEvent_fall (h1 : ch.getLsbD i = true) (h2 : v.getLsbD i = false) :
    lineEvent ch v now s i = (s.setDur i (elapsed s.reload s.start[i] now)).setPend (raisePend s.pend i) := by
  simp only [lineEvent, fallingEdge, h1, h2, Bool.and_false, Bool.not_false, Bool.and_self, if_true, if_false,
    Bool.false_eq_true]

theorem lineEvent_same (h1 : ch.getLsbD i = false) : lineEvent ch v now s i = s := by
  simp only [lineEvent, h1, Bool.false_and, Bool.false_eq_true, if_false]

/-- What the action of one line can be, said once. -/
theorem lineEvent_cases :
    (ch.getLsbD i = true ∧ v.getLsbD i = true ∧ lineEvent ch v now s i = s.setStart i now) ∨
    (ch.getLsbD i = true ∧ v.getLsbD i = false ∧
      lineEvent ch v now s i = (s.setDur i (elapsed s.reload s.start[i] now)).setPend (raisePend s.pend i)) ∨
    (ch.getLsbD i = false ∧ lineEvent ch v now s i = s) := by
  cases h1 : ch.getLsbD i
  · exact .inr (.inr ⟨rfl, lineEvent_same ch v now s i h1⟩)
  · cases h2 : v.getLsbD i
    · exact .inr (.inl ⟨rfl, rfl, lineEvent_fall ch v now s i h1 h2⟩)
    · exact .inl ⟨rfl, rfl, lineEvent_rise ch v now s i h1 h2⟩

theorem lineEvent_start :
    (lineEvent ch v now s i).start[j] =
      if j = i ∧ ch.getLsbD i = true ∧ v.getLsbD i = true then now else s.start[j] := by
  have hset : (s.setStart i now).start[j] = if j = i then now else s.start[j] := by
    simp [Vector.getElem_set, Fin.ext_iff, @eq_comm _ i.val]
  obtain ⟨h1, h2, h⟩ | ⟨h1, h2, h⟩ | ⟨h1, h⟩ := lineEvent_cases ch v now s i <;> rw [h, h1]
  · rw [h2, hset]; simp
  · rw [h2]; simp
  · simp

theorem lineEvent_dur :
    (lineEvent ch v now s i).dur[j] =
      if j = i ∧ ch.getLsbD i = true ∧ v.getLsbD i = false then elapsed s.reload s.start[i] now else s.dur[j] := by
  have hset (x : Word) (p : Lines) : ((s.setDur i x).setPend p).dur[j] = if j = i then x else s.dur[j] := by
    simp [Vector.getElem_set, Fin.ext_iff, @eq_comm _ i.val]
  obtain ⟨h1, h2, h⟩ | ⟨h1, h2, h⟩ | ⟨h1, h⟩ := lineEvent_cases ch v now s i <;> rw [h, h1]
  · rw [h2]; simp
  · rw [h2, hset]; simp
  · simp

theorem lineEvent_pend :
    (lineEvent ch v now s i).pend.getLsbD j =
      (s.pend.getLsbD j || decide (j = i ∧ ch.getLsbD i = true ∧ v.getLsbD i = false)) := by
  obtain ⟨h1, h2, h⟩ | ⟨h1, h2, h⟩ | ⟨h1, h⟩ := lineEvent_cases ch v now s i <;> rw [h, h1]
  · rw [h2]; simp
  · rw [h2, State.setPend_pend, raisePend_getLsbD]; simp
  · simp

/-- Whatever START, DUR and PEND do not touch stays. -/
theorem lineEvent_keeps {α : Type} (f : State → α) (hs : ∀ s i x, f (State.setStart s i x) = f s)
    (hd : ∀ s i x p, f ((State.setDur s i x).setPend p) = f s) : f (lineEvent ch v now s i) = f s := by
  obtain ⟨-, -, h⟩ | ⟨-, -, h⟩ | ⟨-, h⟩ := lineEvent_cases ch v now s i <;> rw [h]
  · exact hs _ _ _
  · exact hd _ _ _ _

@[simp] theorem lineEvent_reload : (lineEvent ch v now s i).reload = s.reload :=
  lineEvent_keeps ch v now s i (·.reload) (fun _ _ _ => rfl) fun _ _ _ _ => rfl

end

/-! ### Edges: the whole event -/

section
variable (v : Lines) (s : State) (i : Line)

theorem changed_getLsbD : (v ^^^ s.lvl).getLsbD i = (v.getLsbD i ^^ s.lvl.getLsbD i) := by simp

theorem edgeEvent_start :
    (edgeEvent v s).start[i] = if v.getLsbD i = true ∧ s.lvl.getLsbD i = false then s.frc else s.start[i] := by
  simp only [edgeEvent, State.setLvl_start, List.foldl, lineEvent_start, changed_getLsbD]
  generalize hv : v.getLsbD i = x
  generalize hl : s.lvl.getLsbD i = y
  fin_cases i <;> simp_all <;> cases x <;> cases y <;> simp

theorem edgeEvent_dur :
    (edgeEvent v s).dur[i] =
      if v.getLsbD i = false ∧ s.lvl.getLsbD i = true then elapsed s.reload s.start[i] s.frc else s.dur[i] := by
  simp only [edgeEvent, State.setLvl_dur, List.foldl, lineEvent_dur, lineEvent_start, lineEvent_reload, changed_getLsbD]
  generalize hv : v.getLsbD i = x
  generalize hl : s.lvl.getLsbD i = y
  fin_cases i <;> simp_all <;> cases x <;> cases y <;> simp

theorem edgeEvent_pend :
    (edgeEvent v s).pend.getLsbD i = (s.pend.getLsbD i || (!v.getLsbD i && s.lvl.getLsbD i)) := by
  simp only [edgeEvent, State.setLvl_pend, List.foldl, lineEvent_pend, changed_getLsbD]
  generalize hv : v.getLsbD i = x
  generalize hl : s.lvl.getLsbD i = y
  fin_cases i <;> simp_all <;> cases x <;> cases y <;> simp

/-- Whatever LVL, START, DUR and PEND do not touch stays. -/
theorem edgeEvent_keeps {α : Type} (f : State → α) (hs : ∀ s i x, f (State.setStart s i x) = f s)
    (hd : ∀ s i x p, f ((State.setDur s i x).setPend p) = f s) (hl : ∀ s x, f (State.setLvl s x) = f s) :
    f (edgeEvent v s) = f s := by
  simp only [edgeEvent, List.foldl, hl, lineEvent_keeps _ _ _ _ _ f hs hd]

@[simp] theorem edgeEvent_lvl : (edgeEvent v s).lvl = v := rfl
@[simp] theorem edgeEvent_bp : (edgeEvent v s).bp = s.bp :=
  edgeEvent_keeps v s (·.bp) (fun _ _ _ => rfl) (fun _ _ _ _ => rfl) fun _ _ => rfl
@[simp] theorem edgeEvent_out : (edgeEvent v s).out = s.out :=
  edgeEvent_keeps v s (·.out) (fun _ _ _ => rfl) (fun _ _ _ _ => rfl) fun _ _ => rfl
@[simp] theorem edgeEvent_pcnt : (edgeEvent v s).pcnt = s.pcnt :=
  edgeEvent_keeps v s (·.pcnt) (fun _ _ _ => rfl) (fun _ _ _ _ => rfl) fun _ _ => rfl
@[simp] theorem edgeEvent_pocr : (edgeEvent v s).pocr = s.pocr :=
  edgeEvent_keeps v s (·.pocr) (fun _ _ _ => rfl) (fun _ _ _ _ => rfl) fun _ _ => rfl
@[simp] theorem edgeEvent_plane : (edgeEvent v s).plane = s.plane :=
  edgeEvent_keeps v s (·.plane) (fun _ _ _ => rfl) (fun _ _ _ _ => rfl) fun _ _ => rfl
@[simp] theorem edgeEvent_tick : (edgeEvent v s).tick = s.tick :=
  edgeEvent_keeps v s (·.tick) (fun _ _ _ => rfl) (fun _ _ _ _ => rfl) fun _ _ => rfl
@[simp] theorem edgeEvent_frc : (edgeEvent v s).frc = s.frc :=
  edgeEvent_keeps v s (·.frc) (fun _ _ _ => rfl) (fun _ _ _ _ => rfl) fun _ _ => rfl
@[simp] theorem edgeEvent_reload : (edgeEvent v s).reload = s.reload :=
  edgeEvent_keeps v s (·.reload) (fun _ _ _ => rfl) (fun _ _ _ _ => rfl) fun _ _ => rfl
@[simp] theorem edgeEvent_pending : (edgeEvent v s).pending = s.pending :=
  edgeEvent_keeps v s (·.pending) (fun _ _ _ => rfl) (fun _ _ _ _ => rfl) fun _ _ => rfl
@[simp] theorem edgeEvent_resp : (edgeEvent v s).resp = s.resp :=
  edgeEvent_keeps v s (·.resp) (fun _ _ _ => rfl) (fun _ _ _ _ => rfl) fun _ _ => rfl

end

end Sys2Proof.Machine
end

