-- ==== Sys2Proof/Laws/Exec.lean ====
section
/-! SUPPORT. What each operation leaves: the state after it, and, field by field, which operations write the field. -/

namespace Sys2Proof.Machine

variable (s : State)

/-- Every operation completes. -/
theorem exec_eq_next_after (i : Instr) : exec i s = .next (after i s) := by
  cases i <;> rfl

/-- The state an operation answers is the state after it. -/
theorem eq_after_of_exec {i : Instr} {s t : State} (h : exec i s = .next t) : t = after i s := by
  rw [exec_eq_next_after] at h
  exact (Host.Outcome.next.inj h).symm

/-! ### The state after each operation -/

@[simp] theorem after_rdBp (p : PlaneIdx) : after (.rdBp p) s = s.setResp (some ⟨.ok, some (peek s (.bp p))⟩) := rfl
@[simp] theorem after_rdTick (c : Channel) : after (.rdTick c) s = s.setResp (some ⟨.ok, some (peek s (.tick c))⟩) := rfl
@[simp] theorem after_rdDur (i : Line) : after (.rdDur i) s = s.setResp (some ⟨.ok, some (peek s (.dur i))⟩) := rfl
@[simp] theorem after_rdPend : after (.rdPend) s = s.setResp (some ⟨.ok, some (peek s (.pend))⟩) := rfl
@[simp] theorem after_rdLvl : after (.rdLvl) s = s.setResp (some ⟨.ok, some (peek s (.lvl))⟩) := rfl
@[simp] theorem after_rdStart (i : Line) : after (.rdStart i) s = s.setResp (some ⟨.ok, some (peek s (.start i))⟩) := rfl
@[simp] theorem after_rdFrc : after (.rdFrc) s = s.setResp (some ⟨.ok, some (peek s (.frc))⟩) := rfl
@[simp] theorem after_rdReload : after (.rdReload) s = s.setResp (some ⟨.ok, some (peek s (.reload))⟩) := rfl
@[simp] theorem after_rdOut : after (.rdOut) s = s.setResp (some ⟨.ok, some (peek s (.out))⟩) := rfl
@[simp] theorem after_rdPlane : after (.rdPlane) s = s.setResp (some ⟨.ok, some (peek s (.plane))⟩) := rfl
@[simp] theorem after_rdPcnt : after (.rdPcnt) s = s.setResp (some ⟨.ok, some (peek s (.pcnt))⟩) := rfl
@[simp] theorem after_rdPocr : after (.rdPocr) s = s.setResp (some ⟨.ok, some (peek s (.pocr))⟩) := rfl
@[simp] theorem after_rdUnmapped (a : Addr) : after (.rdUnmapped a) s = s.setResp (some ⟨.err, some 0x0000#16⟩) := rfl
@[simp] theorem after_wrErr (a : Addr) (d : Word) : after (.wrErr a d) s = s.setResp (some ⟨.err, none⟩) := rfl
@[simp] theorem after_wrBp (p : PlaneIdx) (d : Word) :
    after (.wrBp p d) s = (s.setBp p (planeData d)).setResp (some ⟨.ok, none⟩) := rfl
@[simp] theorem after_subTick (c : Channel) (d : Word) :
    after (.subTick c d) s = (s.setTick c (satSub s.tick[c] d)).setResp (some ⟨.ok, none⟩) := rfl
@[simp] theorem after_clrPend (d : Word) :
    after (.clrPend d) s = (s.setPend (clearPend s.pend d)).setResp (some ⟨.ok, none⟩) := rfl
@[simp] theorem after_evPclk : after .evPclk s = (pwmClock s).setResp none := rfl
@[simp] theorem after_evFrcclk : after .evFrcclk s = (frcClock s).setResp none := rfl
@[simp] theorem after_evEdge (v : Lines) : after (.evEdge v) s = (edgeEvent v s).setResp none := rfl
@[simp] theorem after_evReset : after .evReset s = (resetBlock s).setResp none := rfl

/-! ### What the PWM clock and the FRC clock leave alone -/

/-- Whatever OUT, PCNT, POCR and PLANE do not touch stays at a PWM clock. -/
theorem pwmClock_keeps {α : Type} (f : State → α)
    (h : ∀ s a b c d, f ((((State.setOut s a).setPocr b).setPlane c).setPcnt d) = f s)
    (hp : ∀ s d, f (State.setPcnt s d) = f s) : f (pwmClock s) = f s := by
  obtain ⟨-, e⟩ | ⟨-, -, e⟩ | ⟨-, -, e⟩ := pwmClock_cases s <;> rw [e]
  · exact h _ _ _ _ _
  · exact h _ _ _ _ _
  · exact hp _ _

@[simp] theorem pwmClock_tick : (pwmClock s).tick = s.tick :=
  pwmClock_keeps s (·.tick) (fun _ _ _ _ _ => rfl) fun _ _ => rfl
@[simp] theorem pwmClock_frc : (pwmClock s).frc = s.frc :=
  pwmClock_keeps s (·.frc) (fun _ _ _ _ _ => rfl) fun _ _ => rfl
@[simp] theorem pwmClock_lvl : (pwmClock s).lvl = s.lvl :=
  pwmClock_keeps s (·.lvl) (fun _ _ _ _ _ => rfl) fun _ _ => rfl
@[simp] theorem pwmClock_start : (pwmClock s).start = s.start :=
  pwmClock_keeps s (·.start) (fun _ _ _ _ _ => rfl) fun _ _ => rfl
@[simp] theorem pwmClock_dur : (pwmClock s).dur = s.dur :=
  pwmClock_keeps s (·.dur) (fun _ _ _ _ _ => rfl) fun _ _ => rfl
@[simp] theorem pwmClock_pend : (pwmClock s).pend = s.pend :=
  pwmClock_keeps s (·.pend) (fun _ _ _ _ _ => rfl) fun _ _ => rfl
@[simp] theorem pwmClock_reload : (pwmClock s).reload = s.reload :=
  pwmClock_keeps s (·.reload) (fun _ _ _ _ _ => rfl) fun _ _ => rfl
@[simp] theorem pwmClock_pending : (pwmClock s).pending = s.pending :=
  pwmClock_keeps s (·.pending) (fun _ _ _ _ _ => rfl) fun _ _ => rfl
@[simp] theorem pwmClock_resp : (pwmClock s).resp = s.resp :=
  pwmClock_keeps s (·.resp) (fun _ _ _ _ _ => rfl) fun _ _ => rfl
@[simp] theorem pwmClock_bp : (pwmClock s).bp = s.bp :=
  pwmClock_keeps s (·.bp) (fun _ _ _ _ _ => rfl) fun _ _ => rfl

@[simp] theorem pwmClock_pcnt : (pwmClock s).pcnt = s.pcnt + 1#8 := by
  obtain ⟨h, e⟩ | ⟨-, -, e⟩ | ⟨-, -, e⟩ := pwmClock_cases s <;> rw [e]
  · rw [h]; rfl
  · rfl
  · rfl

/-- Whatever FRC and TICK do not touch stays at an FRC clock. -/
theorem frcClock_keeps {α : Type} (f : State → α) (hf : ∀ s x, f (State.setFrc s x) = f s)
    (ht : ∀ s x, f (State.setTicks s x) = f s) : f (frcClock s) = f s := by
  by_cases h : s.frc = 0xFFFF#16
  · rw [frcClock_wrap s h, hf, tickAll, ht]
  · rw [frcClock_count s h, hf]

@[simp] theorem frcClock_bp : (frcClock s).bp = s.bp :=
  frcClock_keeps s (·.bp) (fun _ _ => rfl) fun _ _ => rfl
@[simp] theorem frcClock_out : (frcClock s).out = s.out :=
  frcClock_keeps s (·.out) (fun _ _ => rfl) fun _ _ => rfl
@[simp] theorem frcClock_pcnt : (frcClock s).pcnt = s.pcnt :=
  frcClock_keeps s (·.pcnt) (fun _ _ => rfl) fun _ _ => rfl
@[simp] theorem frcClock_pocr : (frcClock s).pocr = s.pocr :=
  frcClock_keeps s (·.pocr) (fun _ _ => rfl) fun _ _ => rfl
@[simp] theorem frcClock_plane : (frcClock s).plane = s.plane :=
  frcClock_keeps s (·.plane) (fun _ _ => rfl) fun _ _ => rfl
@[simp] theorem frcClock_lvl : (frcClock s).lvl = s.lvl :=
  frcClock_keeps s (·.lvl) (fun _ _ => rfl) fun _ _ => rfl
@[simp] theorem frcClock_start : (frcClock s).start = s.start :=
  frcClock_keeps s (·.start) (fun _ _ => rfl) fun _ _ => rfl
@[simp] theorem frcClock_dur : (frcClock s).dur = s.dur :=
  frcClock_keeps s (·.dur) (fun _ _ => rfl) fun _ _ => rfl
@[simp] theorem frcClock_pend : (frcClock s).pend = s.pend :=
  frcClock_keeps s (·.pend) (fun _ _ => rfl) fun _ _ => rfl
@[simp] theorem frcClock_reload : (frcClock s).reload = s.reload :=
  frcClock_keeps s (·.reload) (fun _ _ => rfl) fun _ _ => rfl
@[simp] theorem frcClock_pending : (frcClock s).pending = s.pending :=
  frcClock_keeps s (·.pending) (fun _ _ => rfl) fun _ _ => rfl
@[simp] theorem frcClock_resp : (frcClock s).resp = s.resp :=
  frcClock_keeps s (·.resp) (fun _ _ => rfl) fun _ _ => rfl

theorem frcClock_frc : (frcClock s).frc = if s.frc = 0xFFFF#16 then s.reload else s.frc + 1#16 := by
  by_cases h : s.frc = 0xFFFF#16
  · rw [frcClock_wrap s h, if_pos h]; rfl
  · rw [frcClock_count s h, if_neg h]; rfl

theorem frcClock_tick (c : Channel) :
    (frcClock s).tick[c] = s.tick[c] + if s.frc = 0xFFFF#16 then 1#16 else 0#16 := by
  by_cases h : s.frc = 0xFFFF#16
  · rw [frcClock_wrap s h, if_pos h, State.setFrc_tick, tickAll_tick]
  · rw [frcClock_count s h, if_neg h]; simp

/-! ### Which operations write a field -/

variable {s}
variable {i : Instr}

/-- No step changes RELOAD. -/
@[simp] theorem after_reload : (after i s).reload = s.reload := by
  cases i <;> simp

@[simp] theorem after_pending : (after i s).pending = s.pending := by
  cases i <;> simp

theorem after_bp_of_ne (p : PlaneIdx) (h : ∀ d, i ≠ .wrBp p d) (hr : i ≠ .evReset) : (after i s).bp[p] = s.bp[p] := by
  cases i <;> simp_all
  rename_i q d
  rw [Vector.getElem_set_ne]
  exact fun e => h (Fin.ext e)

/-- Only EV_PCLK and EV_RESET write OUT, PCNT, POCR and PLANE. -/
theorem after_pwm_of_ne (h : i ≠ .evPclk) (hr : i ≠ .evReset) :
    (after i s).out = s.out ∧ (after i s).pcnt = s.pcnt ∧ (after i s).pocr = s.pocr ∧ (after i s).plane = s.plane := by
  cases i <;> simp_all

/-- Only EV_FRCCLK and EV_RESET write FRC. -/
theorem after_frc_of_ne (h : i ≠ .evFrcclk) (hr : i ≠ .evReset) : (after i s).frc = s.frc := by
  cases i <;> simp_all

/-- Only EV_EDGE and EV_RESET write LVL, START and DUR. -/
theorem after_capture_of_ne (h : ∀ v, i ≠ .evEdge v) (hr : i ≠ .evReset) :
    (after i s).lvl = s.lvl ∧ (after i s).start = s.start ∧ (after i s).dur = s.dur := by
  cases i <;> simp_all

/-- A tick counter that is neither subtracted from nor reset gains one at a tick and nothing else. -/
theorem after_tick (c : Channel) (h : ∀ d, i ≠ .subTick c d) (hr : i ≠ .evReset) :
    (after i s).tick[c] = s.tick[c] + if isTick i s then 1#16 else 0#16 := by
  cases i
  case evFrcclk => simpa [isTick] using frcClock_tick s c
  case subTick e d =>
    have : e.val ≠ c.val := fun q => h d (by rw [Fin.ext q])
    simp [isTick, Vector.getElem_set_ne, this]
  all_goals simp_all [isTick]

end Sys2Proof.Machine
end

