-- ==== Sys2Proof/Laws/HostProgram.lean ====
section
/-! SUPPORT. What a host program makes of an operation, of a step, of a run and of a script. -/

namespace Sys2Proof.Machine

variable {s t : State}

@[simp] theorem answeredErr_setResp_none : (s.setResp none).answeredErr = false := rfl
@[simp] theorem answeredErr_setResp_ok (d : Option Word) : (s.setResp (some ⟨.ok, d⟩)).answeredErr = false := rfl
@[simp] theorem answeredErr_setResp_err (d : Option Word) : (s.setResp (some ⟨.err, d⟩)).answeredErr = true := rfl

/-- `answeredErr` says what `SafeStep` asks of the response. -/
theorem answeredErr_eq_false_iff : t.answeredErr = false ↔ ∀ r, t.resp = some r → r.status = .ok := by
  unfold State.answeredErr
  split <;> simp_all

/-- The error transactions, and no others, leave the response ERR. -/
@[simp] theorem after_answeredErr (i : Instr) : (after i s).answeredErr = i.answersErr := by
  cases i <;> rfl

/-- What a host program sees is a next state exactly if the block went on without ERR. -/
theorem hostSees_eq_next_iff {o : Host.Outcome State Fault Refusal} :
    hostSees o = .next t ↔ o = .next t ∧ t.answeredErr = false := by
  match o with
  | .next u =>
    cases h : u.answeredErr
    · simp only [hostSees, h, Bool.false_eq_true, if_false, Host.Outcome.next.injEq]
      exact ⟨fun e => ⟨e, e ▸ h⟩, And.left⟩
    · simp only [hostSees, h, if_true, Host.Outcome.next.injEq, reduceCtorEq, false_iff]
      rintro ⟨rfl, e⟩
      simp [h] at e
  | .fault f => nomatch f
  | .refused r => simp [hostSees]

/-- An operation as a host program takes it: its fault for an error transaction, else the state after it. -/
theorem hostExec_eq (i : Instr) (s : State) :
    hostExec i s = if i.answersErr then .fault (.errResponse (after i s)) else .next (after i s) := by
  rw [hostExec, exec_eq_next_after, hostSees, after_answeredErr]

theorem hostExec_of_not_err {i : Instr} (h : i.answersErr = false) : hostExec i s = .next (after i s) := by
  rw [hostExec_eq, h]; rfl

theorem hostExec_of_err {i : Instr} (h : i.answersErr = true) : hostExec i s = .fault (.errResponse (after i s)) := by
  rw [hostExec_eq, h]; rfl

/-- The events answer nothing. -/
theorem answersErr_of_isRunning {i : Instr} (h : i.isRunning = true) : i.answersErr = false := by
  cases i <;> first | rfl | exact Bool.noConfusion h

/-- A safe step is a step that a host program completes. -/
theorem safeStep_iff : SafeStep s ↔ ∃ t, hostStep s = .next t := by
  simp only [SafeStep, hostStep, hostSees_eq_next_iff, answeredErr_eq_false_iff]

/-- A step of a word that decodes, as a host program takes it. -/
theorem hostStep_cons {w : TxWord} {ws : List TxWord} {i : Instr} (hp : s.pending = w :: ws) (hd : decode w = .ok i) :
    hostStep s = hostExec i (s.setPending ws) := by
  simp only [hostStep, hostExec, step, takeWord, hp, hd]

/-! ### Runs, of any machine (the block's own and a host program's) -/

theorem run_succ_of_next (M : Host.Core) (n : Nat) {a b : M.State} (h : M.step a = .next b) :
    M.run (n + 1) a = M.run n b := by
  rw [Host.Core.run, h]

theorem run_succ_of_fault (M : Host.Core) (n : Nat) {a : M.State} {f : M.Fault} (h : M.step a = .fault f) :
    M.run (n + 1) a = .fault f := by
  rw [Host.Core.run, h]

theorem run_succ_of_refused (M : Host.Core) (n : Nat) {a : M.State} {r : M.Refusal} (h : M.step a = .refused r) :
    M.run (n + 1) a = .refused r := by
  rw [Host.Core.run, h]

/-! ### Scripts -/

/-- A script goes on after a transaction that is not answered ERR. -/
theorem Script.run_emit_of_not_err {i : Instr} (h : i.answersErr = false) (k : Script) (env : List (List Instr)) :
    (Script.emit i k).run env s = k.run env.tail (after i (afterAll (env.headD []) s)) := by
  rw [Script.run, hostExec_of_not_err h]

/-- A script goes on after a read that is not answered ERR, with the data word it returned. -/
theorem Script.run_ask_of_not_err {i : Instr} (h : i.answersErr = false) (k : Word → Script) (env : List (List Instr)) :
    (Script.ask i k).run env s =
      (k (respData (after i (afterAll (env.headD []) s)))).run env.tail (after i (afterAll (env.headD []) s)) := by
  rw [Script.run, hostExec_of_not_err h]

/-- A script ends at an ERR. -/
theorem Script.run_emit_of_err {i : Instr} (h : i.answersErr = true) (k : Script) (env : List (List Instr)) :
    (Script.emit i k).run env s = .fault (.errResponse (after i (afterAll (env.headD []) s))) := by
  rw [Script.run, hostExec_of_err h]

/-- A script ends at a read answered ERR. -/
theorem Script.run_ask_of_err {i : Instr} (h : i.answersErr = true) (k : Word → Script) (env : List (List Instr)) :
    (Script.ask i k).run env s = .fault (.errResponse (after i (afterAll (env.headD []) s))) := by
  rw [Script.run, hostExec_of_err h]

end Sys2Proof.Machine
end

