-- ==== Sys2Proof/Laws/PerInstr.lean ====
section
/-! SUPPORT. One lemma per operation: the fields of its word (30_encoding.md R47 to R51 and the word column of R56). -/

namespace Sys2Proof.Laws.Encoding

/-- The fields K, E, A and D the formats give an operation. -/
def fields : Instr → BitVec 2 × BitVec 6 × Addr × Word
  | .rdBp p => (0, 0, (Reg.bp p).addr, 0)
  | .rdTick c => (0, 0, (Reg.tick c).addr, 0)
  | .rdDur i => (0, 0, (Reg.dur i).addr, 0)
  | .rdPend => (0, 0, 0x14, 0)
  | .rdLvl => (0, 0, 0x15, 0)
  | .rdStart i => (0, 0, (Reg.start i).addr, 0)
  | .rdFrc => (0, 0, 0x1C, 0)
  | .rdReload => (0, 0, 0x1D, 0)
  | .rdOut => (0, 0, 0x20, 0)
  | .rdPlane => (0, 0, 0x21, 0)
  | .rdPcnt => (0, 0, 0x22, 0)
  | .rdPocr => (0, 0, 0x23, 0)
  | .rdUnmapped a => (0, 0, a, 0)
  | .wrBp p d => (1, 0, (Reg.bp p).addr, d)
  | .subTick c d => (1, 0, (Reg.tick c).addr, d)
  | .clrPend d => (1, 0, 0x14, d)
  | .wrErr a d => (1, 0, a, d)
  | .evPclk => (2, 0x01, 0, 0)
  | .evFrcclk => (2, 0x02, 0, 0)
  | .evEdge v => (2, 0x03, 0, 0#13 ++ v)
  | .evReset => (2, 0x3F, 0, 0)

/-- The word of an operation has the fields its format gives. -/
def Statement (i : Instr) : Prop :=
  (fieldK (encode i), fieldE (encode i), fieldA (encode i), fieldD (encode i)) = fields i

/-- A word laid out from its four fields has them. -/
theorem fields_append (k : BitVec 2) (e : BitVec 6) (a : Addr) (d : Word) :
    (fieldK (k ++ e ++ a ++ d), fieldE (k ++ e ++ a ++ d), fieldA (k ++ e ++ a ++ d), fieldD (k ++ e ++ a ++ d)) =
      (k, e, a, d) := by
  rw [fieldK_append, fieldE_append, fieldA_append, fieldD_append]

theorem rdBp (p : PlaneIdx) : Statement (.rdBp p) := fields_append ..
theorem rdTick (c : Channel) : Statement (.rdTick c) := fields_append ..
theorem rdDur (i : Line) : Statement (.rdDur i) := fields_append ..
theorem rdPend : Statement .rdPend := fields_append ..
theorem rdLvl : Statement .rdLvl := fields_append ..
theorem rdStart (i : Line) : Statement (.rdStart i) := fields_append ..
theorem rdFrc : Statement .rdFrc := fields_append ..
theorem rdReload : Statement .rdReload := fields_append ..
theorem rdOut : Statement .rdOut := fields_append ..
theorem rdPlane : Statement .rdPlane := fields_append ..
theorem rdPcnt : Statement .rdPcnt := fields_append ..
theorem rdPocr : Statement .rdPocr := fields_append ..
theorem rdUnmapped (a : Addr) : Statement (.rdUnmapped a) := fields_append ..
theorem wrBp (p : PlaneIdx) (d : Word) : Statement (.wrBp p d) := fields_append ..
theorem subTick (c : Channel) (d : Word) : Statement (.subTick c d) := fields_append ..
theorem clrPend (d : Word) : Statement (.clrPend d) := fields_append ..
theorem wrErr (a : Addr) (d : Word) : Statement (.wrErr a d) := fields_append ..
theorem evPclk : Statement .evPclk := fields_append ..
theorem evFrcclk : Statement .evFrcclk := fields_append ..
theorem evEdge (v : Lines) : Statement (.evEdge v) := fields_append ..
theorem evReset : Statement .evReset := fields_append ..

end Sys2Proof.Laws.Encoding
end

