-- ==== Sys2Proof/Tests/Slice0.lean ====
section
/-! SUPPORT. Tests: expected values are those of spec/95_test_vectors.md (the vector's id stands with each) or worked out by
hand from the rule named; and, for every statement with hypotheses, a witness that meets them. -/

namespace Sys2Proof.Tests

open Sys2Proof.Machine

/-! ### Helpers -/

/-- The reset state of a model instance with `FRC_RELOAD = 0xFFF0`, the test parameter of 95_test_vectors.md (`W = 16`). -/
def st : State := { State.reset with frc := 0xFFF0#16, reload := 0xFFF0#16 }

/-- A field of the state an outcome gives, none for a fault or a refusal. -/
def got {α : Type} (o : Host.Outcome State Fault Refusal) (f : State → α) : Option α :=
  match o with
  | .next t => some (f t)
  | .fault _ => none
  | .refused _ => none

/-- What the host learnt from a script that it completes. -/
def learnt (o : Host.Outcome (Option Word × State) HostFault Refusal) : Option (Option Word) :=
  match o with
  | .next r => some r.1
  | .fault _ => none
  | .refused _ => none

/-- PCNT and the words left where a host program's run ends in the fault of an ERR. -/
def faulted {α : Type} (o : Host.Outcome α HostFault Refusal) : Option (BitVec 8 × List TxWord) :=
  match o with
  | .next _ => none
  | .fault (.errResponse t) => if t.answeredErr then some (t.pcnt, t.pending) else none
  | .refused _ => none

/-- The refusal of an outcome. -/
def refusal (o : Host.Outcome State Fault Refusal) : Option Refusal :=
  match o with
  | .refused r => some r
  | .next _ => none
  | .fault _ => none

/-- The state with a transaction word presented. -/
def fed (s : State) (w : TxWord) : State := { s with pending := [w] }

/-! ### WellFormed: an ill-formed term for each check -/

theorem test_wf_refuses_unmapped_read_of_BP0 : (Instr.rdUnmapped 0x00#8).wf = false := by decide
theorem test_wf_refuses_error_write_to_PEND : (Instr.wrErr 0x14#8 1#16).wf = false := by decide
theorem test_wf_accepts_error_operations : (Instr.rdUnmapped 0x24#8).wf = true ∧ (Instr.wrErr 0x0F#8 1#16).wf = true := by
  decide

/-! ### Decoding: for every constructor a word laid out by hand from R48 to R53 -/

theorem test_decode_reads_of_data :
    decode 0b00_000000_00000011_0000000000000000#32 = .ok (.rdBp 3) ∧
    decode 0b00_000000_00001110_0000000000000000#32 = .ok (.rdTick 6) ∧
    decode 0b00_000000_00010010_0000000000000000#32 = .ok (.rdDur 2) ∧
    decode 0b00_000000_00010100_0000000000000000#32 = .ok .rdPend ∧
    decode 0b00_000000_00010101_0000000000000000#32 = .ok .rdLvl ∧
    decode 0b00_000000_00011001_0000000000000000#32 = .ok (.rdStart 1) := by decide

theorem test_decode_reads_of_status :
    decode 0b00_000000_00011100_0000000000000000#32 = .ok .rdFrc ∧
    decode 0b00_000000_00011101_0000000000000000#32 = .ok .rdReload ∧
    decode 0b00_000000_00100000_0000000000000000#32 = .ok .rdOut ∧
    decode 0b00_000000_00100001_0000000000000000#32 = .ok .rdPlane ∧
    decode 0b00_000000_00100010_0000000000000000#32 = .ok .rdPcnt ∧
    decode 0b00_000000_00100011_0000000000000000#32 = .ok .rdPocr ∧
    decode 0b00_000000_11111111_0000000000000000#32 = .ok (.rdUnmapped 0xFF#8) := by decide

theorem test_decode_writes :
    decode 0b01_000000_00000000_0000000001010101#32 = .ok (.wrBp 0 0x55#16) ∧
    decode 0b01_000000_00001000_0000000000010100#32 = .ok (.subTick 0 20#16) ∧
    decode 0b01_000000_00010100_1111111111111000#32 = .ok (.clrPend 0xFFF8#16) ∧
    decode 0b01_000000_00100000_0000000001111111#32 = .ok (.wrErr 0x20#8 0x7F#16) := by decide

theorem test_decode_events :
    decode 0x81000000#32 = .ok .evPclk ∧ decode 0x82000000#32 = .ok .evFrcclk ∧
    decode 0x83000005#32 = .ok (.evEdge 5#3) ∧ decode 0xBF000000#32 = .ok .evReset := by decide

/-- X9 to X15. -/
theorem test_decode_reserved :
    decode 0x00000001#32 = .error .readData ∧ decode 0x01000000#32 = .error .readEvent ∧
    decode 0x41000000#32 = .error .writeEvent ∧ decode 0xFFFFFFFF#32 = .error .kind ∧
    decode 0xBE000000#32 = .error .eventCode ∧ decode 0xBF000001#32 = .error .eventLevels ∧
    decode 0x83000008#32 = .error .eventHigh ∧ decode 0x83010000#32 = .error .eventAddr := by decide

theorem test_table_word : decodeTableWord 32 0x400E1234 = some (.subTick 6 0x1234#16) := by decide

/-! ### Host transactions -/

/-- P8. -/
theorem test_rdBp : got (exec (.rdBp 2) (st.setBp 2 0xC3#8)) (·.resp) = some (some ⟨.ok, some 0x00C3#16⟩) := by decide
/-- P9. -/
theorem test_wrBp : got (exec (.wrBp 7 0xFF80#16) st) (·.bp) = some #v[0, 0, 0, 0, 0, 0, 0, 0x80] := by decide
/-- X2 with TICK[6] = 0x1234. -/
theorem test_rdTick : got (exec (.rdTick 6) (st.setTick 6 0x1234#16)) (·.resp) = some (some ⟨.ok, some 0x1234#16⟩) := by
  decide
/-- T7. -/
theorem test_subTick : got (exec (.subTick 0 20#16) (st.setTick 0 25#16)) (·.tick[0]) = some 5#16 := by decide
/-- T9. -/
theorem test_subTick_clamps : got (exec (.subTick 2 10#16) (st.setTick 2 3#16)) (·.tick[2]) = some 0#16 := by decide
/-- E12. -/
theorem test_rdDur : got (exec (.rdDur 0) ((st.setDur 0 7#16).setPend 1#3)) (fun t => (t.resp, t.pend)) =
    some (some ⟨.ok, some 7#16⟩, 1#3) := by decide
/-- E10. -/
theorem test_clrPend : got (exec (.clrPend 5#16) (st.setPend 7#3)) (·.pend) = some 2#3 := by decide
/-- E11. -/
theorem test_clrPend_ignores_high_bits : got (exec (.clrPend 0xFFF8#16) (st.setPend 2#3)) (·.pend) = some 2#3 := by decide
/-- R88, example. -/
theorem test_rdPend : got (exec .rdPend (st.setPend 5#3)) (·.resp) = some (some ⟨.ok, some 5#16⟩) := by decide
/-- R90, example. -/
theorem test_rdLvl : got (exec .rdLvl (st.setLvl 2#3)) (·.resp) = some (some ⟨.ok, some 2#16⟩) := by decide
/-- R91, example. -/
theorem test_rdStart : got (exec (.rdStart 2) (st.setStart 2 0xFFF8#16)) (·.resp) = some (some ⟨.ok, some 0xFFF8#16⟩) := by
  decide
/-- P-B, row 8. -/
theorem test_rdFrc : got (exec .rdFrc st) (·.resp) = some (some ⟨.ok, some 0xFFF0#16⟩) := by decide
/-- T14. -/
theorem test_rdReload : got (exec .rdReload (st.setFrc 0xFFFA#16)) (·.resp) = some (some ⟨.ok, some 0xFFF0#16⟩) := by decide
/-- P1. -/
theorem test_rdOut : got (exec .rdOut (st.setOut 0x7F#7)) (·.resp) = some (some ⟨.ok, some 0x007F#16⟩) := by decide
/-- P1. -/
theorem test_rdPlane : got (exec .rdPlane st) (·.resp) = some (some ⟨.ok, some 1#16⟩) := by decide
/-- R70, example. -/
theorem test_rdPcnt : got (exec .rdPcnt (st.setPcnt 5#8)) (·.resp) = some (some ⟨.ok, some 5#16⟩) := by decide
/-- P1. -/
theorem test_rdPocr : got (exec .rdPocr st) (·.resp) = some (some ⟨.ok, some 2#16⟩) := by decide
/-- P-E, row 3. -/
theorem test_rdUnmapped : got (step (fed st 0x000F0000#32)) (·.resp) = some (some ⟨.err, some 0#16⟩) := by decide
/-- P12. -/
theorem test_wrErr : got (step (fed (st.setOut 3#7) 0x4020007F#32)) (fun t => (t.resp, t.out)) =
    some (some ⟨.err, none⟩, 3#7) := by decide

/-! ### Hardware events -/

/-- P3. -/
theorem test_evPclk_compare :
    got (exec .evPclk ((st.setPcnt 1#8).setBp 1 0x55#8)) (fun t => (t.pcnt, t.out, t.pocr, t.plane)) =
      some (2#8, 0x55#7, 4#8, 2#3) := by decide
/-- P6. -/
theorem test_evPclk_overflow :
    got (exec .evPclk ((((st.setPcnt 0xFF#8).setPocr 0#8).setPlane 0#3).setBp 0 0x85#8))
      (fun t => (t.pcnt, t.out, t.pocr, t.plane)) = some (0#8, 5#7, 2#8, 1#3) := by decide
/-- T3. -/
theorem test_evFrcclk_tick :
    got (exec .evFrcclk ((st.setFrc 0xFFFF#16).setTicks #v[0, 5, 0xFFFF, 0x1234, 0, 0, 0x10])) (fun t => (t.frc, t.tick)) =
      some (0xFFF0#16, #v[1, 6, 0, 0x1235, 1, 1, 0x11]) := by decide
/-- T1. -/
theorem test_evFrcclk_counts : got (exec .evFrcclk st) (fun t => (t.frc, t.tick[0])) = some (0xFFF1#16, 0#16) := by decide
/-- E3, its falling edge. -/
theorem test_evEdge_wrapped_fall :
    got (exec (.evEdge 0#3) (((st.setFrc 0xFFF3#16).setLvl 2#3).setStart 1 0xFFFC#16)) (fun t => (t.dur, t.pend, t.lvl)) =
      some (#v[0, 7, 0], 2#3, 0#3) := by decide
/-- R80, example: line 0 falls and line 1 rises in one step, with one time stamp. -/
theorem test_evEdge_fall_and_rise :
    got (exec (.evEdge 2#3) ((({ st with reload := 0x0000#16 } : State).setFrc 0x1234#16).setLvl 1#3)) (fun t => (t.start, t.dur, t.pend, t.lvl)) =
      some (#v[0, 0x1234, 0], #v[0x1234, 0, 0], 1#3, 2#3) := by decide
/-- X17. -/
theorem test_evReset :
    got (step (fed ((((st.setOut 0x7F#7).setPend 7#3).setLvl 1#3).setFrc 0xFFFA#16) 0xBF000000#32))
      (fun t => (t.out, t.pend, t.lvl, t.frc)) = some (0#7, 0#3, 0#3, 0xFFF0#16) := by decide

/-! ### The step -/

/-- X12. -/
theorem test_reserved_word_is_refused :
    refusal (step (fed st 0xC0000000#32)) = some (.reservedWord .kind 0xC0000000#32) := by decide
/-- R107: no event, every register keeps its value. -/
theorem test_idle : got (step st) id = some st := by decide
theorem test_withFetchWord_runs_next :
    got (step (st.withFetchWord 32 0x81000000)) (fun t => (t.pcnt, t.pending)) = some (1#8, []) := by decide

/-! ### Assembler and pseudo-operations -/

/-- R56: names, raw addresses, comments, capitals. -/
theorem test_assemble :
    Asm.assemble "WR bp7, 0xFF80 ; store".toList = some (.op (.wrBp 7 0xFF80#16)) ∧
    Asm.assemble "rd 0x03".toList = some (.op (.rdBp 3)) ∧
    Asm.assemble "ev edge 0b010".toList = some (.op (.evEdge 2#3)) ∧
    Asm.assemble "sub TICK0, 65536".toList = none := by decide
/-- R57, `consume`: E12's sample. -/
theorem test_consume : learnt ((Pseudo.consume 0).expand.run [] ((st.setDur 0 7#16).setPend 1#3)) = some (some 7#16) := by decide

/-! ### Host programs -/

/-- R97: a write to OUT is answered ERR, and the PWM clock behind it is not reached. -/
theorem test_run_ends_at_err :
    faulted (hostCore.run 3 (st.setPending [0x81000000#32, 0x4020007F#32, 0x81000000#32])) = some (1#8, [0x81000000#32]) := by
  decide
/-- R97, R93: a read of 0x0F ends a script. -/
theorem test_script_ends_at_err :
    faulted ((Script.ask (.rdUnmapped 0x0F#8) fun d => .emit (.wrBp 0 d) (.done none)).run [[.evPclk]] st) =
      some (1#8, []) := by decide

/-! ### Witnesses: for every statement with hypotheses, a concrete state and operands that meet them, at a boundary value
for each clause -/

/-- The state at the end of a PWM cycle, with plane 0 all ones. -/
def cycleEnd : State := (((st.setPcnt 0xFF#8).setPocr 0#8).setPlane 0#3).setBp 0 0x7F#8

/-- A schedule that never resets and never writes a plane. -/
theorem clocks_only (l : List Instr) (h : ∀ i ∈ l, i = .evPclk ∨ i = .evFrcclk) :
    ∀ i ∈ l, i ≠ .evReset ∧ ∀ p d, i ≠ .wrBp p d := by
  intro i hi
  obtain rfl | rfl := h i hi <;> simp

theorem witness_PwmClockAdvancesAndShowsThePlane :
    (0 = ((st.setPcnt 0xFF#8).pcnt.toNat + 1) % 256) ∧
    (0x80 = ((st.setPcnt 0x7F#8).pcnt.toNat + 1) % 256 ∧ 0x80 ≠ 0 ∧ 0x80 = (st.setPocr 0x80#8).pocr.toNat) ∧
    (1 = (st.pcnt.toNat + 1) % 256 ∧ 1 ≠ 0 ∧ 1 ≠ st.pocr.toNat) := by decide

theorem witness_FrcClockAdvancesOrReloadsAndTicks :
    (st.setFrc 0xFFFF#16).frc = 0xFFFF#16 ∧ (st.setFrc 0xFFFE#16).frc ≠ 0xFFFF#16 ∧ st.reload ≤ st.frc ∧
    exec .evFrcclk st = .next (after .evFrcclk st) := ⟨by decide, by decide, by decide, exec_eq_next_after _ _⟩

/-- Line 0 falls, line 1 rises, line 2 stays; and the two cases of the duration. -/
theorem witness_EdgeEventRecordsRisesAndPostsFalls :
    rises 1 2#3 (st.setLvl 1#3) = true ∧ falls 0 2#3 (st.setLvl 1#3) = true ∧
    (2#3).getLsbD (2 : Line) = (st.setLvl 1#3).lvl.getLsbD (2 : Line) ∧
    (st.setStart 0 0xFFF0#16).start[0].toNat ≤ st.frc.toNat ∧
    ¬ (st.setStart 0 0xFFF1#16).start[0].toNat ≤ st.frc.toNat ∧
    (st.reload ≤ (st.setStart 0 0xFFF1#16).start[0] ∧ st.reload ≤ st.frc) := by decide

theorem witness_PowerOnAndEvResetHaveTheSameEffect :
    (State.reset.setOut 0x7F#7).reload = State.reset.reload := rfl

theorem witness_DecodeOfEncodeIsTheOperation :
    (Instr.rdUnmapped 0xFF#8).wf = true ∧ (Instr.wrErr 0x0F#8 0xFFFF#16).wf = true ∧ (Instr.evEdge 7#3).wf = true := by decide

theorem witness_EncodeOfDecodeIsTheWord :
    decode 0x400EFFFF#32 = .ok (.subTick 6 0xFFFF#16) ∧ decode 0x00240000#32 = .ok (.rdUnmapped 0x24#8) := by decide

theorem witness_AssemblingTheDisassemblyGivesTheOperation : (Instr.wrErr 0xFF#8 0xFFFF#16).wf = true := by decide

theorem witness_StepRunsTheDecodedOperation :
    ((fed st 0x81000000#32).pending = 0x81000000#32 :: [] ∧ decode 0x81000000#32 = .ok .evPclk) ∧ st.pending = [] := by decide

/-- Every disjunct of "reserved" at a boundary word, and words that are not reserved next to them. -/
theorem witness_ReservedWordsAreRefusedAndOthersComplete :
    (0xC0000000 / 2 ^ 30 = 3 ∧ 0xFFFFFFFF / 2 ^ 30 = 3) ∧
    (0x01000000 / 2 ^ 30 = 0 ∧ 0x01000000 / 2 ^ 24 % 64 ≠ 0) ∧ (0x00FF0001 / 2 ^ 30 = 0 ∧ 0x00FF0001 % 65536 ≠ 0) ∧
    (0x7F000000 / 2 ^ 30 = 1 ∧ 0x7F000000 / 2 ^ 24 % 64 ≠ 0) ∧
    (0x83000008 / 2 ^ 30 = 2 ∧ 0x83000008#32 ≠ 0x81000000#32 ∧ 0x83000008#32 ≠ 0x82000000#32 ∧
      0x83000008#32 ≠ 0xBF000000#32 ∧ ¬ (0x83000000 ≤ 0x83000008 ∧ 0x83000008 ≤ 0x83000007)) ∧
    got (step (fed st 0x83000007#32)) (·.lvl) = some 7#3 ∧ got (step (fed st 0x00FF0000#32)) (·.out) = some 0#7 := by decide

theorem witness_OnlyErrorTransactionsAnswerErr :
    (fed st 0x40300001#32).pending = 0x40300001#32 :: [] ∧ decode 0x40300001#32 = .ok (.wrErr 0x30#8 1#16) ∧
    decode 0x40140001#32 = .ok (.clrPend 1#16) := by decide

theorem witness_RunningTheWordsOfAScheduleRunsItsOperations :
    ∀ i ∈ [Instr.evPclk, .rdUnmapped 0x0F#8, .wrBp 7 0xFF80#16, .evReset], i.wf = true := by decide

theorem witness_EveryStepKeepsTheInvariants :
    (fed st 0x82000000#32).Inv ∧ got (step (fed st 0x82000000#32)) (·.frc) = some 0xFFF1#16 :=
  ⟨⟨⟨by decide, by decide, by decide⟩, by unfold State.FrcInv; decide⟩, by decide⟩

theorem witness_NoStepChangesReload :
    step (fed st 0xBF000000#32) = .next (after .evReset (fed st 0xBF000000#32 |>.setPending [])) := rfl

theorem witness_OutChangesOnlyAtPlaneEvents :
    (exec .evPclk cycleEnd = .next (after .evPclk cycleEnd) ∧ isOverflow .evPclk cycleEnd = true) ∧
    (exec .evPclk (st.setPcnt 1#8) = .next (after .evPclk (st.setPcnt 1#8)) ∧ isCompare .evPclk (st.setPcnt 1#8) = true) ∧
    (exec .evReset st = .next (after .evReset st)) ∧
    (exec .evPclk st = .next (after .evPclk st) ∧ isOverflow .evPclk st = false ∧ isCompare .evPclk st = false) :=
  ⟨⟨exec_eq_next_after _ _, by decide⟩, ⟨exec_eq_next_after _ _, by decide⟩, exec_eq_next_after _ _,
    exec_eq_next_after _ _, by decide, by decide⟩

theorem witness_PwmRegistersHaveTheStatedWriters :
    exec (.wrBp 0 1#16) st = .next (after (.wrBp 0 1#16) st) ∧ Instr.wrBp 0 1#16 ≠ .evReset ∧
    (∀ d, Instr.wrBp 0 1#16 ≠ .wrBp 7 d) ∧ Instr.wrBp 0 1#16 ≠ .evPclk ∧
    isOverflow (.wrBp 0 1#16) st = false ∧ isCompare (.wrBp 0 1#16) st = false :=
  ⟨exec_eq_next_after _ _, by decide, by simp, by decide, by decide, by decide⟩

theorem witness_TickRegistersHaveTheStatedWriters :
    exec (.subTick 0 1#16) st = .next (after (.subTick 0 1#16) st) ∧ Instr.subTick 0 1#16 ≠ .evReset ∧
    isTick (.subTick 0 1#16) st = false ∧ (∀ d, Instr.subTick 0 1#16 ≠ .subTick 6 d) ∧ Instr.subTick 0 1#16 ≠ .evFrcclk :=
  ⟨exec_eq_next_after _ _, by decide, by decide, by simp, by decide⟩

/-- A falling edge that sets a flag, a clear that clears one, a rise of line 1 that leaves line 0 alone. -/
theorem witness_CaptureRegistersHaveTheStatedWriters :
    (exec (.evEdge 0#3) (st.setLvl 1#3) = .next (after (.evEdge 0#3) (st.setLvl 1#3)) ∧
      (st.setLvl 1#3).pend.getLsbD (0 : Line) = false ∧ (after (.evEdge 0#3) (st.setLvl 1#3)).pend.getLsbD (0 : Line) = true) ∧
    (exec (.clrPend 1#16) (st.setPend 7#3) = .next (after (.clrPend 1#16) (st.setPend 7#3)) ∧
      (st.setPend 7#3).pend.getLsbD (0 : Line) = true ∧
      (after (.clrPend 1#16) (st.setPend 7#3)).pend.getLsbD (0 : Line) = false) ∧
    (exec (.evEdge 2#3) st = .next (after (.evEdge 2#3) st) ∧ (∀ v, Instr.evEdge 2#3 = .evEdge v → rises 0 v st = false) ∧
      (∀ v, Instr.evEdge 2#3 = .evEdge v → falls 0 v st = false)) :=
  ⟨⟨exec_eq_next_after _ _, by decide⟩, ⟨exec_eq_next_after _ _, by decide⟩, exec_eq_next_after _ _, by decide, by decide⟩

/-- Two states that differ in one unit only, each way. -/
theorem witness_PwmAndTimingUnitsAreIsolated :
    (st.bp = (st.setFrc 0xFFFF#16).bp ∧ st.out = (st.setFrc 0xFFFF#16).out ∧ st.pcnt = (st.setFrc 0xFFFF#16).pcnt ∧
      st.pocr = (st.setFrc 0xFFFF#16).pocr ∧ st.plane = (st.setFrc 0xFFFF#16).plane) ∧
    (st.tick = cycleEnd.tick ∧ st.frc = cycleEnd.frc ∧ st.lvl = cycleEnd.lvl ∧ st.start = cycleEnd.start ∧
      st.dur = cycleEnd.dur ∧ st.pend = cycleEnd.pend ∧ st.reload = cycleEnd.reload) := by decide

theorem witness_HostTransactionsButSubTickAreIdempotent :
    (Instr.clrPend 5#16).isHost = true ∧ ∀ c d, Instr.clrPend 5#16 ≠ .subTick c d := ⟨rfl, by simp⟩

theorem witness_OneTickInEveryWrapPeriod :
    st.FrcInv ∧ (∀ i ∈ List.replicate 16 Instr.evFrcclk, i ≠ .evReset) ∧
    (List.replicate 16 Instr.evFrcclk).count .evFrcclk = wrapPeriod st.reload :=
  ⟨by unfold State.FrcInv; decide, by decide, by decide⟩

theorem witness_TickCountersGainOnePerTick :
    (∀ i ∈ [Instr.evFrcclk, .subTick 0 1#16], i ≠ .evReset ∧ ∀ d, i ≠ .subTick 6 d) ∧
    (∀ i ∈ [Instr.evFrcclk, .subTick 0 1#16], ∀ d, i ≠ .subTick 5 d) := by simp

/-- T16, with a tick between: `t = 20`, `d = 20`, one tick. -/
theorem witness_ReadThenSubtractLosesNoTick :
    (after (.rdTick 0) ((st.setTick 0 20#16).setFrc 0xFFFF#16)).resp = some ⟨.ok, some 20#16⟩ ∧
    (20#16).toNat ≤ (20#16).toNat ∧ (∀ i ∈ [Instr.evFrcclk], i ≠ .evReset ∧ ∀ e, i ≠ .subTick 0 e) ∧
    (20#16).toNat + ticksIn [.evFrcclk] (after (.rdTick 0) ((st.setTick 0 20#16).setFrc 0xFFFF#16)) < 65536 ∧
    ticksIn [.evFrcclk] (after (.rdTick 0) ((st.setTick 0 20#16).setFrc 0xFFFF#16)) = 1 :=
  ⟨by decide, by decide, by simp, by decide, by decide⟩

/-- The two clocks in turn. -/
def alternate (n : Nat) : Instr := if n % 2 = 0 then .evPclk else .evFrcclk

theorem witness_FairRunsTickAndOverflowForever : WeaklyFair alternate ∧ ∀ n, alternate n ≠ .evReset := by
  refine ⟨⟨fun n => ⟨2 * n, by omega, ?_⟩, fun n => ⟨2 * n + 1, by omega, ?_⟩⟩, fun n => ?_⟩
  · simp [alternate]
  · simp [alternate, Nat.add_mod]
  · unfold alternate
    split <;> simp

/-- The invariants hold at the end of a cycle. -/
theorem cycleEnd_inv : cycleEnd.Inv :=
  ⟨⟨by decide, by decide, by decide⟩, by unfold State.FrcInv; decide⟩

/-- Both ends of the cycle: `k = 0` and `k = 255`. -/
theorem witness_OnePwmCycleShowsThePlanesByWeight :
    cycleEnd.Inv ∧ cycleEnd.pcnt = 0xFF#8 ∧
    ([Instr.evFrcclk, .evPclk].count .evPclk = 0 + 1 ∧ ∀ i ∈ [Instr.evFrcclk, .evPclk], i ≠ .evReset ∧ ∀ p d, i ≠ .wrBp p d) ∧
    (255 < 256 ∧ (List.replicate 256 Instr.evPclk).count .evPclk = 255 + 1 ∧
      ∀ i ∈ List.replicate 256 Instr.evPclk, i ≠ .evReset ∧ ∀ p d, i ≠ .wrBp p d) :=
  ⟨cycleEnd_inv, rfl, ⟨by decide, clocks_only _ (by simp)⟩, by decide, List.count_replicate_self,
    clocks_only _ fun _ h => .inl (List.eq_of_mem_replicate h)⟩

theorem witness_DutyOfALineIsItsBrightness :
    cycleEnd.Inv ∧ cycleEnd.pcnt = 0xFF#8 ∧ (List.replicate 256 Instr.evPclk).count .evPclk = 256 ∧
    ∀ i ∈ List.replicate 256 Instr.evPclk, i ≠ .evReset ∧ ∀ p d, i ≠ .wrBp p d :=
  ⟨cycleEnd_inv, rfl, List.count_replicate_self, clocks_only _ fun _ h => .inl (List.eq_of_mem_replicate h)⟩

theorem witness_OutputsStayLowUntilAPlaneIsWritten :
    ∀ i ∈ [Instr.evPclk, .evEdge 7#3, .subTick 0 1#16, .evReset], ∀ p d, i ≠ .wrBp p d := by simp

theorem witness_WrchanReplacesOneChannelAndLosesNoBit :
    ∀ l ∈ [[Instr.evPclk, .evEdge 1#3], [], [.evFrcclk]], ∀ i ∈ l, i.isRunning = true := by decide

/-- E3: a pulse across a wrap. -/
theorem witness_PulseIsMeasuredModuloTheWrapPeriod :
    (st.setFrc 0xFFFC#16).FrcInv ∧ rises 1 2#3 (st.setFrc 0xFFFC#16) = true ∧
    (∀ j ∈ [Instr.evFrcclk, .evEdge 3#3, .evFrcclk], j ≠ .evReset ∧ ∀ u, j = .evEdge u → u.getLsbD (1 : Line) = true) ∧
    (0#3).getLsbD (1 : Line) = false :=
  ⟨by unfold State.FrcInv; decide, by decide, by decide, by decide⟩

theorem witness_StartIsDefinedWheneverALineIsActive :
    st.lvl = 0#3 ∧ (afterAll [.evEdge 1#3, .evFrcclk] st).lvl.getLsbD (0 : Line) = true := by decide

theorem witness_LateClearLosesTheNewerSample :
    falls 0 0#3 (st.setLvl 1#3) = true ∧ (1#16).getLsbD (0 : Line) = true := by decide

theorem witness_AnErrIsAFaultOfTheHostProgram :
    (Instr.rdUnmapped 0x24#8).answersErr = true ∧ (Instr.wrErr 0x20#8 0x7F#16).answersErr = true ∧
    Instr.rdOut.answersErr = false ∧
    step (fed st 0xC0000000#32) = .refused (.reservedWord .kind 0xC0000000#32) := ⟨rfl, rfl, rfl, rfl⟩

theorem witness_AHostProgramStopsAtItsFirstErrForGood :
    (∀ j ∈ [Instr.evPclk, .rdReload], j.wf = true ∧ j.answersErr = false) ∧
    ((Instr.rdUnmapped 0x0F#8).wf = true ∧ (Instr.rdUnmapped 0x0F#8).answersErr = true) ∧
    ((Instr.wrErr 0xFF#8 0#16).wf = true ∧ (Instr.wrErr 0xFF#8 0#16).answersErr = true) := by decide

theorem witness_SafeRunsAreTheRunsWithoutAnErr :
    (∀ i ∈ [Instr.evPclk, .clrPend 7#16], i.wf = true ∧ i.answersErr = false) ∧
    hostCore.run 1 (fed st 0x81000000#32) = .next (after .evPclk st) := ⟨by decide, rfl⟩

end Sys2Proof.Tests
end

namespace Sys2Proof

/-! ### Words of the host transactions, written as numbers (30_encoding.md R48, R49) -/

theorem append_toNat_eq_add {m n : Nat} (x : BitVec m) (y : BitVec n) : (x ++ y).toNat = x.toNat * 2 ^ n + y.toNat := by
  rw [BitVec.toNat_append, ← Nat.shiftLeft_add_eq_or_of_lt y.isLt, Nat.shiftLeft_eq]

/-- The word laid out from four fields, as a number. -/
theorem append_fields_eq_ofNat (k : BitVec 2) (e : BitVec 6) (a : Addr) (d : Word) :
    k ++ e ++ a ++ d =
      BitVec.ofNat 32 (k.toNat * 0x40000000 + e.toNat * 0x1000000 + a.toNat * 65536 + d.toNat) := by
  apply BitVec.eq_of_toNat_eq
  simp only [append_toNat_eq_add, BitVec.toNat_ofNat]
  omega

theorem formatR_eq_ofNat (a : Addr) : formatR a = BitVec.ofNat 32 (a.toNat * 65536) := by
  simpa [formatR] using append_fields_eq_ofNat 0#2 0#6 a 0#16

theorem formatW_eq_ofNat (a : Addr) (d : Word) :
    formatW a d = BitVec.ofNat 32 (0x40000000 + a.toNat * 65536 + d.toNat) := by
  simpa [formatW] using append_fields_eq_ofNat 1#2 0#6 a d

/-- A word of format R is the read of its address. -/
theorem decode_formatR (a : Addr) : decode (formatR a) = .ok (decodeRead a) := by
  simp only [decode, formatR, fieldK_append, fieldE_append, fieldA_append, fieldD_append]
  rfl

/-- A word of format W is the write of its data to its address. -/
theorem decode_formatW (a : Addr) (d : Word) : decode (formatW a d) = .ok (decodeWrite a d) := by
  simp only [decode, formatW, fieldK_append, fieldE_append, fieldA_append, fieldD_append]
  rfl

/-- The word of a read of address `n`, as a number. -/
theorem decode_readWord {a : Addr} {n : Nat} (h : a.toNat = n) :
    decode (BitVec.ofNat 32 (n * 65536)) = .ok (decodeRead a) := by
  rw [← h, ← formatR_eq_ofNat, decode_formatR]

/-- The word of a write of `d` to address `n`, as a number. -/
theorem decode_writeWord {a : Addr} {n : Nat} (h : a.toNat = n) (d : Word) :
    decode (BitVec.ofNat 32 (0x40000000 + n * 65536 + d.toNat)) = .ok (decodeWrite a d) := by
  rw [← h, ← formatW_eq_ofNat, decode_formatW]

/-! ### Addresses of the indexed registers, and what reads and writes of a register decode to -/

theorem bp_addr_toNat (p : PlaneIdx) : (Reg.bp p).addr.toNat = 0x00 + p.val := by
  simp [Reg.addr]; omega

theorem tick_addr_toNat (c : Channel) : (Reg.tick c).addr.toNat = 0x08 + c.val := by
  simp [Reg.addr]; omega

theorem dur_addr_toNat (i : Line) : (Reg.dur i).addr.toNat = 0x10 + i.val := by
  simp [Reg.addr]; omega

@[simp] theorem decodeRead_addr (r : Reg) : decodeRead r.addr = readOf r := by
  simp only [decodeRead, regAt_addr]

@[simp] theorem decodeWrite_bp_addr (p : PlaneIdx) (d : Word) : decodeWrite (Reg.bp p).addr d = .wrBp p d := by
  simp only [decodeWrite, regAt_addr]

/-- A write to a duration register is an error: it is read-only (R94). -/
@[simp] theorem decodeWrite_dur_addr (i : Line) (d : Word) :
    decodeWrite (Reg.dur i).addr d = .wrErr (Reg.dur i).addr d := by
  simp only [decodeWrite, regAt_addr]

/-- The word of a read of a register whose address is `n`, as a number. -/
theorem decode_readReg (r : Reg) {n : Nat} (h : r.addr.toNat = n) :
    decode (BitVec.ofNat 32 (n * 65536)) = .ok (readOf r) := by
  rw [decode_readWord h, decodeRead_addr]

end Sys2Proof

namespace Sys2Proof.Machine

/-! ### Reads and writes as the whole next state -/

/-- The updated vector in the form in which the statements on WR_BP (R67) and SUB_TICK (R76) give it. -/
theorem vector_set_eq_ofFn {α : Type} {n : Nat} (v : Vector α n) (i : Fin n) (x : α) :
    v.set i.val x i.isLt = Vector.ofFn fun j : Fin n => if j = i then x else v[j] := by
  ext j hj
  simp [Vector.getElem_set, Fin.ext_iff, eq_comm]

theorem planeData_eq_ofNat (d : Word) : planeData d = BitVec.ofNat 8 (d.toNat % 256) := by
  apply BitVec.eq_of_toNat_eq
  simp [planeData]

/-- WR_BP touches one plane and keeps the seven others (R67). -/
theorem setBp_eq (s : State) (p : PlaneIdx) (b : Byte) :
    s.setBp p b = { s with bp := Vector.ofFn fun q : PlaneIdx => if q = p then b else s.bp[q] } := by
  rw [State.setBp, vector_set_eq_ofFn]

/-- Settles O1: each word is the read (or write) of its register's address, and each read leaves the state with the
response set. -/
theorem dataReadsAnswerTheRegister : Obligations.DataReadsAnswerTheRegister := by
  have dur_write (i : Line) (d : Word) :
      decode (BitVec.ofNat 32 (0x40000000 + (0x10 + i.val) * 65536 + d.toNat)) =
        .ok (.wrErr (BitVec.ofNat 8 (0x10 + i.val)) d) := by
    rw [decode_writeWord (dur_addr_toNat i), decodeWrite_dur_addr, ← dur_addr_toNat, BitVec.ofNat_toNat,
      BitVec.setWidth_eq]
  refine ⟨fun p => decode_readReg _ (bp_addr_toNat p), fun c => decode_readReg _ (tick_addr_toNat c),
    fun i => decode_readReg _ (dur_addr_toNat i), by decide, by decide, by decide, dur_write, fun s => ?_⟩
  exact ⟨fun p => exec_eq_next_after s (.rdBp p), fun c => exec_eq_next_after s (.rdTick c),
    fun i => exec_eq_next_after s (.rdDur i), exec_eq_next_after s .rdPend⟩

/-- Settles O3: the word is the write to the plane's address, and setting one plane leaves the others. -/
theorem wrBpStoresTheLowByte : Obligations.WrBpStoresTheLowByte := by
  intro p d
  refine ⟨?_, fun s => ?_⟩
  · rw [decode_writeWord (bp_addr_toNat p), decodeWrite_bp_addr]
  · rw [exec_eq_next_after, after_wrBp, setBp_eq, planeData_eq_ofNat]
    rfl

/-! ### The PWM clock in exact integers -/

theorem outLines_eq_ofNat (b : Byte) : outLines b = BitVec.ofNat 7 (b.toNat % 128) := by
  apply BitVec.eq_of_toNat_eq
  simp [outLines]

theorem bitVec_add_one_eq_ofNat {w : Nat} (x : BitVec w) : x + 1#w = BitVec.ofNat w ((x.toNat + 1) % 2 ^ w) := by
  apply BitVec.eq_of_toNat_eq
  simp

/-- The state after an overflow plane event, register by register (R59). -/
theorem overflowEvent_eq (s : State) :
    overflowEvent s =
      { s with out := BitVec.ofNat 7 (s.bp[(0 : PlaneIdx)].toNat % 128), pocr := 0x02#8, plane := 1#3 } := by
  rw [overflowEvent, outLines_eq_ofNat]
  rfl

/-- The state after a compare plane event, register by register (R60). -/
theorem compareEvent_eq (s : State) :
    compareEvent s = { s with
      out := BitVec.ofNat 7 ((s.bp[s.plane.toNat]'(s.plane.isLt)).toNat % 128)
      pocr := BitVec.ofNat 8 (2 ^ (s.plane.toNat + 1) % 256)
      plane := BitVec.ofNat 3 ((s.plane.toNat + 1) % 8) } := by
  rw [compareEvent, outLines_eq_ofNat, bitVec_add_one_eq_ofNat]
  rfl

/-- Settles O7: the next count is `n`, and the three clauses are the three cases of a PWM clock. -/
theorem pwmClockAdvancesAndShowsThePlane : Obligations.PwmClockAdvancesAndShowsThePlane := by
  refine ⟨by decide, fun s => ⟨none, fun n hn => ?_⟩⟩
  have hcount : s.pcnt + 1#8 = BitVec.ofNat 8 n := hn ▸ bitVec_add_one_eq_ofNat s.pcnt
  have hval : (s.pcnt + 1#8).toNat = n := by rw [hn, BitVec.toNat_add]; rfl
  rw [exec_eq_next_after, after_evPclk]
  refine ⟨fun h0 => ?overflow, fun h0 hc => ?compare, fun h0 hc => ?plain⟩
  case overflow =>
    have hmax : s.pcnt = 0xFF#8 := by bv_omega
    rw [pwmClock_overflow s hmax, overflowEvent_eq]
    rfl
  case compare =>
    have hne : s.pcnt + 1#8 ≠ 0#8 := by bv_omega
    have heq : s.pcnt + 1#8 = s.pocr := BitVec.eq_of_toNat_eq (hval.trans hc)
    rw [pwmClock_compare s hne heq, compareEvent_eq, hcount]
    rfl
  case plain =>
    have hne : s.pcnt + 1#8 ≠ 0#8 := by bv_omega
    have hpocr : s.pcnt + 1#8 ≠ s.pocr := fun e => hc (by rw [← hval, e])
    rw [pwmClock_plain s hne hpocr, hcount]
    rfl

end Sys2Proof.Machine

namespace Sys2Proof

/-! ### Writes to the tick counters (30_encoding.md R53) -/

@[simp] theorem decodeWrite_tick_addr (c : Channel) (d : Word) : decodeWrite (Reg.tick c).addr d = .subTick c d := by
  simp only [decodeWrite, regAt_addr]

/-- Address 0x0F, behind the last tick counter, holds no register: a write to it is an error (R94). -/
theorem decodeWrite_behind_ticks (d : Word) : decodeWrite 0x0F#8 d = .wrErr 0x0F#8 d := by
  have hreg : regAt 0x0F#8 = none := by decide
  simp only [decodeWrite, hreg]

end Sys2Proof

namespace Sys2Proof.Machine

/-! ### The clamped subtraction as the whole next state -/

/-- The clamped subtraction of words is that of the natural numbers. -/
theorem satSub_eq_ofNat (a b : Word) : satSub a b = BitVec.ofNat 16 (a.toNat - b.toNat) := by
  rw [← satSub_toNat, BitVec.ofNat_toNat, BitVec.setWidth_eq]

/-- A write to one tick counter keeps the six others. -/
theorem setTick_eq (s : State) (c : Channel) (v : Word) :
    s.setTick c v = { s with tick := Vector.ofFn fun e : Channel => if e = c then v else s.tick[e] } := by
  rw [State.setTick, vector_set_eq_ofFn]

/-- Settles O4: the word is the write to the counter's address, 0x0F has no counter, and setting one counter leaves the
others. -/
theorem subTickSubtractsClampedAtZero : Obligations.SubTickSubtractsClampedAtZero := by
  intro c d
  refine ⟨?word, ?behind, fun s => ?state⟩
  case word => rw [decode_writeWord (tick_addr_toNat c), decodeWrite_tick_addr]
  case behind => exact (decode_writeWord (a := 0x0F#8) rfl d).trans (congrArg _ (decodeWrite_behind_ticks d))
  case state =>
    rw [exec_eq_next_after, after_subTick, setTick_eq, satSub_eq_ofNat]
    rfl

/-! ### The free-running counter in exact integers -/

/-- The state after a tick, counter by counter (R73). -/
theorem tickAll_eq (s : State) :
    tickAll s =
      { s with tick := Vector.ofFn fun c : Channel => BitVec.ofNat 16 ((s.tick[c].toNat + 1) % 65536) } := by
  simp only [tickAll, bitVec_add_one_eq_ofNat]
  rfl

/-- A count not below FRC_RELOAD does not go below it: it is reloaded, or it grows (R72). -/
theorem frcClock_keeps_frcInv {s : State} (h : s.FrcInv) : (frcClock s).FrcInv := by
  rw [State.FrcInv] at h ⊢
  rw [frcClock_reload, frcClock_frc]
  split
  next => exact BitVec.le_refl _
  next hcount => bv_omega

/-- Settles O8: at 0xFFFF the clock reloads and ticks, elsewhere it counts, and neither goes below FRC_RELOAD. -/
theorem frcClockAdvancesOrReloadsAndTicks : Obligations.FrcClockAdvancesOrReloadsAndTicks := by
  refine ⟨by decide, fun s => ⟨none, fun hwrap => ?reload, fun hcount => ?count, fun hle t ht => ?bound⟩⟩
  case reload =>
    rw [exec_eq_next_after, after_evFrcclk, frcClock_wrap s hwrap, tickAll_eq]
    rfl
  case count =>
    have hnext : s.frc + 1#16 = BitVec.ofNat 16 (s.frc.toNat + 1) := by
      rw [BitVec.ofNat_add, BitVec.ofNat_toNat, BitVec.setWidth_eq]
    rw [exec_eq_next_after, after_evFrcclk, frcClock_count s hcount, hnext]
    rfl
  case bound =>
    have hinv : (frcClock s).FrcInv := frcClock_keeps_frcInv hle
    rw [State.FrcInv, frcClock_reload] at hinv
    rw [eq_after_of_exec ht, after_evFrcclk]
    exact hinv

end Sys2Proof.Machine

namespace Sys2Proof

/-! ### Words of CLR_PEND and EV_EDGE, written as numbers (30_encoding.md R49, R50) -/

@[simp] theorem decodeWrite_pend_addr (d : Word) : decodeWrite Reg.pend.addr d = .clrPend d := by
  simp only [decodeWrite, regAt_addr]

theorem formatV_eq_ofNat (e : BitVec 6) (v : Lines) :
    formatV e v = BitVec.ofNat 32 (0x80000000 + e.toNat * 0x1000000 + v.toNat) := by
  rw [formatV, append_fields_eq_ofNat, append_toNat_eq_add]
  simp

theorem fieldV_formatV (e : BitVec 6) (v : Lines) : fieldV (formatV e v) = v := by
  rw [fieldV_eq, formatV, fieldD_append]
  exact BitVec.extractLsb'_append_eq_right

theorem fieldHigh_formatV (e : BitVec 6) (v : Lines) : fieldHigh (formatV e v) = 0#13 := by
  rw [fieldHigh_eq, formatV, fieldD_append]
  exact BitVec.extractLsb'_append_eq_left

/-- A word of format V with event code 0x03 presents its levels. -/
theorem decode_formatV_edge (v : Lines) : decode (formatV 0x03#6 v) = .ok (.evEdge v) := by
  have hkind : fieldK (formatV 0x03#6 v) = 2#2 := fieldK_append ..
  have hevent : fieldE (formatV 0x03#6 v) = 0x03#6 := fieldE_append ..
  have haddr : fieldA (formatV 0x03#6 v) = 0#8 := fieldA_append ..
  simp only [decode, decodeEvent, hkind, hevent, haddr, fieldHigh_formatV, fieldV_formatV]
  rfl

end Sys2Proof

namespace Sys2Proof.Machine

/-- Settles O5: the word is the write to PEND's address, and the write replaces PEND alone. -/
theorem clrPendClearsTheFlagsWrittenOne : Obligations.ClrPendClearsTheFlagsWrittenOne := by
  intro d
  refine ⟨?word, fun s => ⟨_, exec_eq_next_after s (.clrPend d), ?flags, ?frame⟩⟩
  case word => exact (decode_writeWord (a := Reg.pend.addr) rfl d).trans (congrArg _ (decodeWrite_pend_addr d))
  case flags => exact clearPend_getLsbD s.pend d
  case frame => rw [after_clrPend]; rfl

/-! ### One line of an edge event -/

section
variable {i : Line} {v : Lines} {s : State}

theorem rises_eq_true_iff : rises i v s = true ↔ v.getLsbD i = true ∧ s.lvl.getLsbD i = false := by
  simp [rises]

theorem falls_eq_true_iff : falls i v s = true ↔ v.getLsbD i = false ∧ s.lvl.getLsbD i = true := by
  simp [falls]

/-- A line that rises records the time stamp (R81). -/
theorem edgeEvent_of_rises (h : rises i v s = true) :
    (edgeEvent v s).start[i] = s.frc ∧ (edgeEvent v s).dur[i] = s.dur[i] ∧
      (edgeEvent v s).pend.getLsbD i = s.pend.getLsbD i := by
  obtain ⟨hv, hl⟩ := rises_eq_true_iff.mp h
  rw [edgeEvent_start, edgeEvent_dur, edgeEvent_pend, hv, hl]
  simp

/-- A line that falls posts its duration and sets its flag (R82). -/
theorem edgeEvent_of_falls (h : falls i v s = true) :
    (edgeEvent v s).start[i] = s.start[i] ∧ (edgeEvent v s).dur[i] = elapsed s.reload s.start[i] s.frc ∧
      (edgeEvent v s).pend.getLsbD i = true := by
  obtain ⟨hv, hl⟩ := falls_eq_true_iff.mp h
  rw [edgeEvent_start, edgeEvent_dur, edgeEvent_pend, hv, hl]
  simp

/-- A line that keeps its level keeps its capture registers (R80). -/
theorem edgeEvent_of_unchanged (h : v.getLsbD i = s.lvl.getLsbD i) :
    (edgeEvent v s).start[i] = s.start[i] ∧ (edgeEvent v s).dur[i] = s.dur[i] ∧
      (edgeEvent v s).pend.getLsbD i = s.pend.getLsbD i := by
  rw [edgeEvent_start, edgeEvent_dur, edgeEvent_pend, h]
  cases s.lvl.getLsbD i <;> simp

end

/-- A duration between two phases of the counter is less than the wrap period. -/
theorem elapsed_lt_wrapPeriod {reload start now : Word} (hs : reload ≤ start) (hn : reload ≤ now) :
    (elapsed reload start now).toNat < wrapPeriod reload := by
  have hpos : 0 < wrapPeriod reload := Nat.sub_pos_of_lt reload.isLt
  rw [elapsed_of_phases reload start now hs hn]
  exact Nat.mod_lt _ hpos

/-- An edge event touches the four capture registers only. -/
theorem edgeEvent_frame (v : Lines) (s : State) :
    { edgeEvent v s with lvl := s.lvl, start := s.start, dur := s.dur, pend := s.pend } = s := by
  simp

/-- Settles O9: line by line, the three cases of an edge event, and the bound on the duration a fall posts. -/
theorem edgeEventRecordsRisesAndPostsFalls : Obligations.EdgeEventRecordsRisesAndPostsFalls := by
  refine ⟨fun v => ?word, fun s v =>
    ⟨_, exec_eq_next_after s (.evEdge v), edgeEvent_lvl v s, fun i => ?line, ?frame⟩⟩
  case word => exact (congrArg decode (formatV_eq_ofNat 0x03#6 v)).symm.trans (decode_formatV_edge v)
  case frame => exact congrArg (·.setResp s.resp) (edgeEvent_frame v s)
  case line =>
    refine ⟨fun hrise => edgeEvent_of_rises hrise, fun hfall => ?_, fun hfall hstart hfrc => ?_,
      fun hsame => edgeEvent_of_unchanged hsame⟩
    · obtain ⟨hkeep, hdur, hpend⟩ := edgeEvent_of_falls hfall
      exact ⟨hkeep, hpend, (congrArg BitVec.toNat hdur).trans (elapsed_toNat ..)⟩
    · obtain ⟨-, hdur, -⟩ := edgeEvent_of_falls hfall
      exact (congrArg BitVec.toNat hdur).trans_lt (elapsed_lt_wrapPeriod hstart hfrc)

end Sys2Proof.Machine

namespace Sys2Proof.Machine

/-! ### Reset as the whole next state -/

/-- The block after a reset, register by register (R92): nothing of the old state is left but RELOAD and the interface. -/
theorem resetBlock_eq (s : State) :
    resetBlock s =
      { bp := #v[0#8, 0#8, 0#8, 0#8, 0#8, 0#8, 0#8, 0#8], out := 0#7, pcnt := 0x00#8, pocr := 0x02#8, plane := 1#3
        tick := #v[0#16, 0#16, 0#16, 0#16, 0#16, 0#16, 0#16], frc := s.reload, lvl := 0#3
        start := #v[0#16, 0#16, 0#16], dur := #v[0#16, 0#16, 0#16], pend := 0#3
        reload := s.reload, pending := s.pending, resp := s.resp } :=
  rfl

/-- Settles O10: the word decodes by evaluation, and the event answers nothing on the bus and leaves the block reset. -/
theorem evResetPutsEveryRegisterAtItsResetValue : Obligations.EvResetPutsEveryRegisterAtItsResetValue := by
  refine ⟨by decide, fun s => ⟨none, ?state⟩⟩
  case state =>
    rw [exec_eq_next_after, after_evReset, resetBlock_eq]
    rfl

end Sys2Proof.Machine

namespace Sys2Proof

/-! ### The register map as a one-to-one correspondence (20_memory.md R30, R31) -/

/-- An address that has a register is that register's address. -/
theorem addr_of_regAt {a : Addr} {r : Reg} (h : regAt a = some r) : r.addr = a := by
  have hall : ∀ a : Addr, ∀ r ∈ regAt a, r.addr = a := by decide
  exact hall a r h

theorem regAt_eq_some_iff {a : Addr} {r : Reg} : regAt a = some r ↔ r.addr = a :=
  ⟨addr_of_regAt, fun h => h ▸ regAt_addr r⟩

theorem regAt_eq_none_iff {a : Addr} : regAt a = none ↔ Addr.unmapped a = true := by
  revert a
  decide

/-- Settles O16: `regAt` and `Reg.addr` are inverse to each other, and the list of R31 is what `regAt` leaves out. -/
theorem registerMapHasNoAlias : Obligations.RegisterMapHasNoAlias :=
  ⟨fun _ => regAt_eq_none_iff, fun _ _ => regAt_eq_some_iff⟩

/-- An address is that of a register, or the register map has "unmapped" there. -/
theorem addr_cases (a : Addr) : (∃ r : Reg, a = r.addr) ∨ (regAt a = none ∧ Addr.unmapped a = true) := by
  cases h : regAt a with
  | some r => exact .inl ⟨r, (addr_of_regAt h).symm⟩
  | none => exact .inr ⟨rfl, regAt_eq_none_iff.mp h⟩

/-! ### Reads and writes by address: their words and their well-formedness -/

theorem decodeRead_of_unmapped {a : Addr} (h : regAt a = none) : decodeRead a = .rdUnmapped a := by
  simp only [decodeRead, h]

/-- What a write of an address can decode to (R53 lines 14 to 17). -/
theorem decodeWrite_cases (a : Addr) (d : Word) :
    (∃ p, a = (Reg.bp p).addr ∧ decodeWrite a d = .wrBp p d) ∨
    (∃ c, a = (Reg.tick c).addr ∧ decodeWrite a d = .subTick c d) ∨
    (a = Reg.pend.addr ∧ decodeWrite a d = .clrPend d) ∨
    (Addr.writable a = false ∧ decodeWrite a d = .wrErr a d) := by
  obtain ⟨r, rfl⟩ | ⟨hnone, hun⟩ := addr_cases a
  · cases r with
    | bp p => exact .inl ⟨p, rfl, decodeWrite_bp_addr p d⟩
    | tick c => exact .inr (.inl ⟨c, rfl, decodeWrite_tick_addr c d⟩)
    | pend => exact .inr (.inr (.inl ⟨rfl, decodeWrite_pend_addr d⟩))
    | dur i => exact .inr (.inr (.inr ⟨by revert i; decide, decodeWrite_dur_addr i d⟩))
    | start i => exact .inr (.inr (.inr ⟨by revert i; decide, by simp only [decodeWrite, regAt_addr]⟩))
    | _ => exact .inr (.inr (.inr ⟨by decide, by simp only [decodeWrite, regAt_addr]⟩))
  · have hro : ∀ a : Addr, Addr.unmapped a = true → Addr.writable a = false := by decide
    exact .inr (.inr (.inr ⟨hro a hun, by simp only [decodeWrite, hnone]⟩))

/-- The addresses a write acts on are those of the bit-planes, the tick counters and PEND (R94). -/
theorem decodeWrite_of_not_writable {a : Addr} (h : Addr.writable a = false) (d : Word) :
    decodeWrite a d = .wrErr a d := by
  obtain ⟨p, rfl, -⟩ | ⟨c, rfl, -⟩ | ⟨rfl, -⟩ | ⟨-, hw⟩ := decodeWrite_cases a d
  · exact absurd h (by revert p; decide)
  · exact absurd h (by revert c; decide)
  · exact absurd h (by decide)
  · exact hw

theorem encode_readOf (r : Reg) : encode (readOf r) = formatR r.addr := by
  cases r <;> rfl

theorem wf_readOf (r : Reg) : (readOf r).wf = true := by
  cases r <;> rfl

theorem encode_decodeRead (a : Addr) : (decodeRead a).wf = true ∧ encode (decodeRead a) = formatR a := by
  obtain ⟨r, rfl⟩ | ⟨hnone, hun⟩ := addr_cases a
  · rw [decodeRead_addr]
    exact ⟨wf_readOf r, encode_readOf r⟩
  · rw [decodeRead_of_unmapped hnone]
    exact ⟨hun, rfl⟩

theorem encode_decodeWrite (a : Addr) (d : Word) :
    (decodeWrite a d).wf = true ∧ encode (decodeWrite a d) = formatW a d := by
  obtain ⟨p, rfl, hw⟩ | ⟨c, rfl, hw⟩ | ⟨rfl, hw⟩ | ⟨hro, hw⟩ := decodeWrite_cases a d <;> rw [hw]
  · exact ⟨rfl, rfl⟩
  · exact ⟨rfl, rfl⟩
  · exact ⟨rfl, rfl⟩
  · exact ⟨by rw [Instr.wf, hro]; rfl, rfl⟩

/-! ### The decoder by the format of the word -/

/-- The words of the operations, by format (R48 to R50): a read of an address, a write, or one of the four events. -/
theorem instr_cases {i : Instr} (h : i.wf = true) :
    (∃ a, i = decodeRead a) ∨ (∃ a d, i = decodeWrite a d) ∨
    i = .evPclk ∨ i = .evFrcclk ∨ (∃ v, i = .evEdge v) ∨ i = .evReset := by
  cases i with
  | rdUnmapped a => exact .inl ⟨a, (decodeRead_of_unmapped (regAt_eq_none_iff.mpr h)).symm⟩
  | rdBp p => exact .inl ⟨_, (decodeRead_addr (.bp p)).symm⟩
  | rdTick c => exact .inl ⟨_, (decodeRead_addr (.tick c)).symm⟩
  | rdDur i => exact .inl ⟨_, (decodeRead_addr (.dur i)).symm⟩
  | rdPend => exact .inl ⟨_, (decodeRead_addr .pend).symm⟩
  | rdLvl => exact .inl ⟨_, (decodeRead_addr .lvl).symm⟩
  | rdStart i => exact .inl ⟨_, (decodeRead_addr (.start i)).symm⟩
  | rdFrc => exact .inl ⟨_, (decodeRead_addr .frc).symm⟩
  | rdReload => exact .inl ⟨_, (decodeRead_addr .reload).symm⟩
  | rdOut => exact .inl ⟨_, (decodeRead_addr .out).symm⟩
  | rdPlane => exact .inl ⟨_, (decodeRead_addr .plane).symm⟩
  | rdPcnt => exact .inl ⟨_, (decodeRead_addr .pcnt).symm⟩
  | rdPocr => exact .inl ⟨_, (decodeRead_addr .pocr).symm⟩
  | wrBp p d => exact .inr (.inl ⟨_, d, (decodeWrite_bp_addr p d).symm⟩)
  | subTick c d => exact .inr (.inl ⟨_, d, (decodeWrite_tick_addr c d).symm⟩)
  | clrPend d => exact .inr (.inl ⟨_, d, (decodeWrite_pend_addr d).symm⟩)
  | wrErr a d =>
    have hro : Addr.writable a = false := by simpa [Instr.wf] using h
    exact .inr (.inl ⟨a, d, (decodeWrite_of_not_writable hro d).symm⟩)
  | evPclk => simp
  | evFrcclk => simp
  | evEdge v => simp
  | evReset => simp

/-- Settles O13: each format is read back by its own lemma. -/
theorem decodeOfEncodeIsTheOperation : Obligations.DecodeOfEncodeIsTheOperation := by
  intro i hwf
  obtain ⟨a, rfl⟩ | ⟨a, d, rfl⟩ | rfl | rfl | ⟨v, rfl⟩ | rfl := instr_cases hwf
  · rw [(encode_decodeRead a).2, decode_formatR]
  · rw [(encode_decodeWrite a d).2, decode_formatW]
  · decide
  · decide
  · exact decode_formatV_edge v
  · decide

theorem fieldD_eq_append (w : TxWord) : fieldD w = fieldHigh w ++ fieldV w := by
  rw [fieldHigh_eq, fieldV_eq, BitVec.extractLsb'_append_extractLsb'_eq_extractLsb' (Nat.zero_add 3).symm]
  exact BitVec.extractLsb'_eq_self.symm

/-- A word of kind 0b10 whose fields A and `w[15:3]` are zero is of format V. -/
theorem eq_formatV {w : TxWord} (hk : fieldK w = 0b10#2) (ha : fieldA w = 0#8) (hh : fieldHigh w = 0#13) :
    w = formatV (fieldE w) (fieldV w) := by
  conv => lhs; rw [← append_fields w, hk, ha, fieldD_eq_append, hh]
  rfl

/-- A word of kind 0b10 that decodes is the word of its event. -/
theorem encode_of_decodeEvent {w : TxWord} {i : Instr} (hk : fieldK w = 0b10#2) (h : decodeEvent w = .ok i) :
    i.wf = true ∧ encode i = w := by
  unfold decodeEvent at h
  split_ifs at h with hcode haddr hhigh hedge hlevels hpclk hfrcclk
  all_goals
    obtain rfl := Except.ok.inj h
    have hw := eq_formatV hk (not_not.mp haddr) (not_not.mp hhigh)
    refine ⟨rfl, Eq.symm ?_⟩
  · rwa [hedge] at hw
  · rwa [hpclk, not_not.mp hlevels] at hw
  · rwa [hfrcclk, not_not.mp hlevels] at hw
  · have hreset : fieldE w = 0x3F#6 := by simpa [eventCodeKnown, hedge, hpclk, hfrcclk] using hcode
    rwa [hreset, not_not.mp hlevels] at hw

/-- Settles O14: a word that decodes is laid out in the format of its kind. -/
theorem encodeOfDecodeIsTheWord : Obligations.EncodeOfDecodeIsTheWord := by
  intro w i h
  unfold decode at h
  split_ifs at h with hread he hd hwrite he hevent
  · obtain rfl := Except.ok.inj h
    rw [(encode_decodeRead _).2, formatR]
    refine ⟨(encode_decodeRead _).1, ?_⟩
    conv => rhs; rw [← append_fields w, hread, not_not.mp he, not_not.mp hd]
  · obtain rfl := Except.ok.inj h
    rw [(encode_decodeWrite ..).2, formatW]
    refine ⟨(encode_decodeWrite ..).1, ?_⟩
    conv => rhs; rw [← append_fields w, hwrite, not_not.mp he]
  · exact encode_of_decodeEvent hevent h

end Sys2Proof

namespace Sys2Proof

/-! ### The words that spell an operation -/

/-- A word laid out as one of the formats R (R48), W (R49) or V with an event code that is not reserved (R50, R51). -/
def InFormat (w : TxWord) : Prop :=
  (∃ a, w = formatR a) ∨ (∃ a d, w = formatW a d) ∨
  w = formatV 0x01#6 0#3 ∨ w = formatV 0x02#6 0#3 ∨ (∃ v, w = formatV 0x03#6 v) ∨ w = formatV 0x3F#6 0#3

/-- The words that spell an operation are those of the formats. -/
theorem decode_ok_iff {w : TxWord} : (∃ i, decode w = .ok i) ↔ InFormat w := by
  constructor
  · rintro ⟨i, h⟩
    obtain ⟨hwf, rfl⟩ := encodeOfDecodeIsTheWord w i h
    obtain ⟨a, rfl⟩ | ⟨a, d, rfl⟩ | rfl | rfl | ⟨v, rfl⟩ | rfl := instr_cases hwf
    · exact .inl ⟨a, (encode_decodeRead a).2⟩
    · exact .inr (.inl ⟨a, d, (encode_decodeWrite a d).2⟩)
    · exact .inr (.inr (.inl rfl))
    · exact .inr (.inr (.inr (.inl rfl)))
    · exact .inr (.inr (.inr (.inr (.inl ⟨v, rfl⟩))))
    · exact .inr (.inr (.inr (.inr (.inr rfl))))
  · rintro (⟨a, rfl⟩ | ⟨a, d, rfl⟩ | rfl | rfl | ⟨v, rfl⟩ | rfl)
    · exact ⟨_, decode_formatR a⟩
    · exact ⟨_, decode_formatW a d⟩
    · exact ⟨.evPclk, by decide⟩
    · exact ⟨.evFrcclk, by decide⟩
    · exact ⟨_, decode_formatV_edge v⟩
    · exact ⟨.evReset, by decide⟩

theorem formatR_toNat (a : Addr) : (formatR a).toNat = a.toNat * 65536 := by
  rw [formatR_eq_ofNat, BitVec.toNat_ofNat]
  omega

theorem formatW_toNat (a : Addr) (d : Word) : (formatW a d).toNat = 0x40000000 + a.toNat * 65536 + d.toNat := by
  rw [formatW_eq_ofNat, BitVec.toNat_ofNat]
  omega

theorem formatV_toNat (e : BitVec 6) (v : Lines) :
    (formatV e v).toNat = 0x80000000 + e.toNat * 0x1000000 + v.toNat := by
  rw [formatV_eq_ofNat, BitVec.toNat_ofNat]
  omega

/-- The reserved words of R54, on the numeric fields of the word. -/
def ReservedNumber (w : TxWord) : Prop :=
  w.toNat / 2 ^ 30 = 3 ∨ (w.toNat / 2 ^ 30 = 0 ∧ (w.toNat / 2 ^ 24 % 64 ≠ 0 ∨ w.toNat % 65536 ≠ 0)) ∨
  (w.toNat / 2 ^ 30 = 1 ∧ w.toNat / 2 ^ 24 % 64 ≠ 0) ∨
  (w.toNat / 2 ^ 30 = 2 ∧ w ≠ 0x81000000#32 ∧ w ≠ 0x82000000#32 ∧ w ≠ 0xBF000000#32 ∧
    ¬ (0x83000000 ≤ w.toNat ∧ w.toNat ≤ 0x83000007))

theorem not_reservedNumber_of_inFormat {w : TxWord} (h : InFormat w) : ¬ ReservedNumber w := by
  obtain ⟨a, rfl⟩ | ⟨a, d, rfl⟩ | rfl | rfl | ⟨v, rfl⟩ | rfl := h
  · rw [ReservedNumber, formatR_toNat]
    omega
  · rw [ReservedNumber, formatW_toNat]
    omega
  · unfold ReservedNumber; decide
  · unfold ReservedNumber; decide
  · have hv : v.toNat < 8 := v.isLt
    rw [ReservedNumber, formatV_toNat]
    simp only [BitVec.toNat_ofNat]
    omega
  · unfold ReservedNumber; decide

theorem inFormat_of_not_reservedNumber {w : TxWord} (h : ¬ ReservedNumber w) : InFormat w := by
  have hkind : w.toNat / 2 ^ 30 ≠ 3 := fun hk => h (.inl hk)
  have hk : w.toNat / 2 ^ 30 = 0 ∨ w.toNat / 2 ^ 30 = 1 ∨ w.toNat / 2 ^ 30 = 2 := by omega
  obtain hk | hk | hk := hk
  · have he : w.toNat / 2 ^ 24 % 64 = 0 := by_contra fun he => h (.inr (.inl ⟨hk, .inl he⟩))
    have hd : w.toNat % 65536 = 0 := by_contra fun hd => h (.inr (.inl ⟨hk, .inr hd⟩))
    refine .inl ⟨BitVec.ofNat 8 (w.toNat / 65536), BitVec.eq_of_toNat_eq ?_⟩
    rw [formatR_toNat, BitVec.toNat_ofNat]
    omega
  · have he : w.toNat / 2 ^ 24 % 64 = 0 := by_contra fun he => h (.inr (.inr (.inl ⟨hk, he⟩)))
    refine .inr (.inl ⟨BitVec.ofNat 8 (w.toNat / 65536), BitVec.ofNat 16 w.toNat, BitVec.eq_of_toNat_eq ?_⟩)
    rw [formatW_toNat, BitVec.toNat_ofNat, BitVec.toNat_ofNat]
    omega
  · by_cases hpclk : w = formatV 0x01#6 0#3
    · exact .inr (.inr (.inl hpclk))
    by_cases hfrcclk : w = formatV 0x02#6 0#3
    · exact .inr (.inr (.inr (.inl hfrcclk)))
    by_cases hreset : w = formatV 0x3F#6 0#3
    · exact .inr (.inr (.inr (.inr (.inr hreset))))
    have hedge : 0x83000000 ≤ w.toNat ∧ w.toNat ≤ 0x83000007 :=
      by_contra fun hno => h (.inr (.inr (.inr ⟨hk, hpclk, hfrcclk, hreset, hno⟩)))
    refine .inr (.inr (.inr (.inr (.inl ⟨BitVec.ofNat 3 w.toNat, BitVec.eq_of_toNat_eq ?_⟩))))
    rw [formatV_toNat, BitVec.toNat_ofNat, BitVec.toNat_ofNat]
    omega

/-- A word spells no operation exactly if it is in the list of R54. -/
theorem reservedNumber_iff {w : TxWord} : ReservedNumber w ↔ ¬ ∃ i, decode w = .ok i := by
  rw [decode_ok_iff]
  exact ⟨fun hres hfmt => not_reservedNumber_of_inFormat hfmt hres,
    fun hfmt => not_not.mp fun hres => hfmt (inFormat_of_not_reservedNumber hres)⟩

/-! ### The opcode table (R53) -/

/-- A row matches a word exactly if it matches it field by field. -/
theorem holds_iff_fields {r : OpcodeRow} {w : TxWord} :
    r.holds w = true ↔ (fieldK w &&& fieldK r.mask = fieldK r.pat ∧ fieldE w &&& fieldE r.mask = fieldE r.pat ∧
      fieldA w &&& fieldA r.mask = fieldA r.pat ∧ fieldD w &&& fieldD r.mask = fieldD r.pat) ∧
      fieldA w ∉ r.excluded := by
  rw [← append_and_eq_iff, append_fields, append_fields, append_fields]
  simp [OpcodeRow.holds]

/-- What the rows ask of the kind, the event code and the data: those of reads, of writes and of events. -/
theorem opcodeRows_fields : ∀ r ∈ opcodeRows,
    fieldK r.mask = BitVec.allOnes 2 ∧ fieldE r.mask = BitVec.allOnes 6 ∧
    ((fieldK r.pat = 0b00#2 ∧ fieldE r.pat = 0#6 ∧ fieldD r.mask = BitVec.allOnes 16 ∧ fieldD r.pat = 0#16) ∨
     (fieldK r.pat = 0b01#2 ∧ fieldE r.pat = 0#6 ∧ fieldD r.mask = 0#16 ∧ fieldD r.pat = 0#16) ∨
     (fieldK r.pat = 0b10#2 ∧ fieldA r.mask = BitVec.allOnes 8 ∧ fieldA r.pat = 0#8 ∧
       ((fieldE r.pat = 0x03#6 ∧ fieldD r.mask = BitVec.allOnes 13 ++ 0#3 ∧ fieldD r.pat = 0#13 ++ 0#3) ∨
        ((fieldE r.pat = 0x01#6 ∨ fieldE r.pat = 0x02#6 ∨ fieldE r.pat = 0x3F#6) ∧
          fieldD r.mask = BitVec.allOnes 16 ∧ fieldD r.pat = 0#16)))) := by
  decide

theorem high_append_inj {x y : BitVec 13} {u v : Lines} (h : (x ++ u : Word) = y ++ v) : x = y :=
  calc
    x = (x ++ u : Word).extractLsb' 3 13 := BitVec.extractLsb'_append_eq_left.symm
    _ = (y ++ v : Word).extractLsb' 3 13 := congrArg _ h
    _ = y := BitVec.extractLsb'_append_eq_left

/-- A word that a row matches is in a format. -/
theorem inFormat_of_holds {r : OpcodeRow} (hr : r ∈ opcodeRows) {w : TxWord} (h : r.holds w = true) : InFormat w := by
  obtain ⟨⟨hk, he, ha, hd⟩, -⟩ := holds_iff_fields.mp h
  obtain ⟨mk, me, hrow⟩ := opcodeRows_fields r hr
  rw [mk, BitVec.and_allOnes] at hk
  rw [me, BitVec.and_allOnes] at he
  obtain ⟨pk, pe, md, pd⟩ | ⟨pk, pe, -⟩ | ⟨pk, ma, pa, hevent⟩ := hrow
  · rw [md, pd, BitVec.and_allOnes] at hd
    exact .inl ⟨fieldA w, by rw [formatR, ← pk, ← hk, ← pe, ← he, ← hd, append_fields]⟩
  · exact .inr (.inl ⟨fieldA w, fieldD w, by rw [formatW, ← pk, ← hk, ← pe, ← he, append_fields]⟩)
  · rw [ma, pa, BitVec.and_allOnes] at ha
    have hhigh : fieldHigh w = 0#13 := by
      rw [fieldD_eq_append] at hd
      obtain ⟨-, md, pd⟩ | ⟨-, md, pd⟩ := hevent
      · rw [md, pd, BitVec.and_append, BitVec.and_allOnes] at hd
        exact high_append_inj hd
      · rw [md, pd, BitVec.and_allOnes] at hd
        exact high_append_inj (v := 0#3) hd
    have hw : w = formatV (fieldE w) (fieldV w) := eq_formatV (hk.trans pk) ha hhigh
    obtain ⟨pe, -⟩ | ⟨pe, md, pd⟩ := hevent
    · exact .inr (.inr (.inr (.inr (.inl ⟨fieldV w, by rwa [he, pe] at hw⟩))))
    · have hv : fieldV w = 0#3 := by
        rw [md, pd, BitVec.and_allOnes] at hd
        rw [fieldV_eq, hd]
        rfl
      rw [he, hv] at hw
      obtain pe | pe | pe := pe <;> rw [pe] at hw
      · exact .inr (.inr (.inl hw))
      · exact .inr (.inr (.inr (.inl hw)))
      · exact .inr (.inr (.inr (.inr (.inr hw))))

/-- The data of a write decide no row. -/
theorem holds_formatW {r : OpcodeRow} (hr : r ∈ opcodeRows) (a : Addr) (d : Word) :
    r.holds (formatW a d) = r.holds (formatW a 0#16) := by
  obtain ⟨mk, -, ⟨pk, -⟩ | ⟨-, -, md, pd⟩ | ⟨pk, -⟩⟩ := opcodeRows_fields r hr
  all_goals
    rw [Bool.eq_iff_iff, holds_iff_fields, holds_iff_fields]
    simp only [formatW, fieldK_append, fieldE_append, fieldA_append, fieldD_append]
  · simp [mk, pk]
  · simp [md, pd]
  · simp [mk, pk]

theorem firstMatch_formatR : ∀ a : Addr, firstMatch (formatR a) = some (decodeRead a).mnemonic := by
  decide

/-- The first match of a write depends on its address alone, as its mnemonic does. -/
theorem firstMatch_formatW (a : Addr) (d : Word) : firstMatch (formatW a d) = some (decodeWrite a d).mnemonic := by
  have hdata : firstMatch (formatW a d) = firstMatch (formatW a 0#16) :=
    congrArg (Option.map _) (List.find?_congr fun r hr => holds_formatW hr a d)
  have hname : (decodeWrite a d).mnemonic = (decodeWrite a 0#16).mnemonic := by
    unfold decodeWrite
    split <;> rfl
  have hzero : ∀ a : Addr, firstMatch (formatW a 0#16) = some (decodeWrite a 0#16).mnemonic := by decide
  rw [hdata, hname, hzero]

/-- Settles O15: format by format for the words that spell an operation; for the others, no row matches. -/
theorem decodingIsTheFirstMatchOfTheTable : Obligations.DecodingIsTheFirstMatchOfTheTable := by
  intro w
  cases hd : decode w with
  | ok i =>
    obtain ⟨hwf, rfl⟩ := encodeOfDecodeIsTheWord w i hd
    obtain ⟨a, rfl⟩ | ⟨a, d, rfl⟩ | rfl | rfl | ⟨v, rfl⟩ | rfl := instr_cases hwf
    · rw [(encode_decodeRead a).2, firstMatch_formatR]; rfl
    · rw [(encode_decodeWrite a d).2, firstMatch_formatW]; rfl
    · decide
    · decide
    · have hedge : ∀ v, firstMatch (encode (.evEdge v)) = some "EV_EDGE" := by decide
      exact hedge v
    · decide
  | error why =>
    have hnone : ∀ r ∈ opcodeRows, ¬ r.holds w = true := by
      intro r hr hmatch
      obtain ⟨i, hi⟩ := decode_ok_iff.mpr (inFormat_of_holds hr hmatch)
      rw [hd] at hi
      cases hi
    exact congrArg (Option.map _) (List.find?_eq_none.mpr hnone)

/-- Settles O12 by evaluating the decoder on the eleven words. -/
theorem wordsWrittenFromTheFormatsDecode : Obligations.WordsWrittenFromTheFormatsDecode := by
  unfold Obligations.WordsWrittenFromTheFormatsDecode
  decide

end Sys2Proof

namespace Sys2Proof.Machine

/-! ### One step -/

section
variable {s : State} {w : TxWord} {ws : List TxWord}

theorem step_of_decode_ok {i : Instr} (hp : s.pending = w :: ws) (hd : decode w = .ok i) :
    step s = exec i (s.setPending ws) := by
  simp only [step, takeWord, hp, hd]

theorem step_of_decode_error {why : Reserved} (hp : s.pending = w :: ws) (hd : decode w = .error why) :
    step s = .refused (.reservedWord why w) := by
  simp only [step, takeWord, hp, hd]

theorem step_of_no_word (hp : s.pending = []) : step s = .next (s.setResp none) := by
  simp only [step, takeWord, hp, idle]

theorem step_of_decode_ok_eq_after {i : Instr} (hp : s.pending = w :: ws) (hd : decode w = .ok i) :
    step s = .next (after i (s.setPending ws)) := by
  rw [step_of_decode_ok hp hd, exec_eq_next_after]

/-- What a step that answers a next state can do: it is idle, or it runs the operation its word decodes to. -/
theorem step_next_cases {t : State} (h : step s = .next t) :
    (s.pending = [] ∧ t = s.setResp none) ∨
    ∃ w ws i, s.pending = w :: ws ∧ decode w = .ok i ∧ t = after i (s.setPending ws) := by
  cases hp : s.pending with
  | nil =>
    rw [step_of_no_word hp] at h
    exact .inl ⟨rfl, (Host.Outcome.next.inj h).symm⟩
  | cons w ws =>
    cases hd : decode w with
    | ok i =>
      rw [step_of_decode_ok hp hd] at h
      exact .inr ⟨w, ws, i, rfl, hd, eq_after_of_exec h⟩
    | error why =>
      rw [step_of_decode_error hp hd] at h
      cases h

end

/-- Settles O18: the two cases of a step. -/
theorem stepRunsTheDecodedOperation : Obligations.StepRunsTheDecodedOperation :=
  fun _ => ⟨fun _ _ _ hp hd => step_of_decode_ok hp hd, fun hp => step_of_no_word hp⟩

/-- Settles O19: the reserved words are those that spell no operation. -/
theorem reservedWordsAreRefusedAndOthersComplete : Obligations.ReservedWordsAreRefusedAndOthersComplete := by
  intro s w ws hp
  refine ⟨fun hres => ?refused, fun hres => ?completes⟩
  case refused =>
    have hno : ¬ ∃ i, decode w = .ok i := reservedNumber_iff.mp hres
    cases hd : decode w with
    | ok i => exact absurd ⟨i, hd⟩ hno
    | error why => exact ⟨why, step_of_decode_error hp hd⟩
  case completes =>
    obtain ⟨i, hd⟩ : ∃ i, decode w = .ok i := not_not.mp (mt reservedNumber_iff.mpr hres)
    exact ⟨_, step_of_decode_ok_eq_after hp hd⟩

/-! ### Transactions by address (20_memory.md R29, R30) -/

/-- A read of a register's address answers what the register map says. -/
theorem busRead_addr (s : State) (r : Reg) : busRead s r.addr = okData (peek s r) := by
  cases r with
  | bp p => fin_cases p <;> rfl
  | tick c => fin_cases c <;> rfl
  | dur i => fin_cases i <;> rfl
  | start i => fin_cases i <;> rfl
  | _ => rfl

/-- Which addresses the address ranges of the register map shut out, for an address it has "unmapped". -/
theorem unmapped_ranges : ∀ a : Addr, Addr.unmapped a = true →
    ¬ a.toNat < 8 ∧ ¬ (0x08 ≤ a.toNat ∧ a.toNat < 0x0F) ∧ ¬ (0x10 ≤ a.toNat ∧ a.toNat < 0x13) ∧
    a.toNat ≠ 0x14 ∧ a.toNat ≠ 0x15 ∧ ¬ (0x18 ≤ a.toNat ∧ a.toNat < 0x1B) ∧ a.toNat ≠ 0x1C ∧ a.toNat ≠ 0x1D ∧
    ¬ (0x20 ≤ a.toNat ∧ a.toNat < 0x24) := by
  decide

theorem busRead_unmapped (s : State) {a : Addr} (h : Addr.unmapped a = true) :
    busRead s a = ⟨.err, some 0x0000#16⟩ := by
  obtain ⟨hbp, htick, hdur, hpend, hlvl, hstart, hfrc, hreload, hpwm⟩ := unmapped_ranges a h
  obtain ⟨hout, hplane, hpcnt, hpocr⟩ : a.toNat ≠ 0x20 ∧ a.toNat ≠ 0x21 ∧ a.toNat ≠ 0x22 ∧ a.toNat ≠ 0x23 := by omega
  simp only [busRead, dif_neg hbp, dif_neg htick, dif_neg hdur, if_neg hpend, if_neg hlvl, dif_neg hstart,
    if_neg hfrc, if_neg hreload, if_neg hout, if_neg hplane, if_neg hpcnt, if_neg hpocr]

theorem after_readOf (s : State) (r : Reg) : after (readOf r) s = s.setResp (some (okData (peek s r))) := by
  cases r <;> rfl

/-- The read of an address answers `BusRead` and changes no register. -/
theorem after_decodeRead (s : State) (a : Addr) : after (decodeRead a) s = s.setResp (some (busRead s a)) := by
  obtain ⟨r, rfl⟩ | ⟨hnone, hun⟩ := addr_cases a
  · rw [decodeRead_addr, after_readOf, busRead_addr]
  · rw [decodeRead_of_unmapped hnone, busRead_unmapped s hun, after_rdUnmapped]

theorem busWrite_not_writable (s : State) {a : Addr} (d : Word) (h : Addr.writable a = false) :
    busWrite s a d = (⟨.err, none⟩, s) := by
  have hranges : ∀ a : Addr, Addr.writable a = false →
      ¬ a.toNat < 8 ∧ ¬ (0x08 ≤ a.toNat ∧ a.toNat < 0x0F) ∧ a.toNat ≠ 0x14 := by decide
  obtain ⟨hbp, htick, hpend⟩ := hranges a h
  simp only [busWrite, dif_neg hbp, dif_neg htick, if_neg hpend]

/-- The write of an address does and answers what `BusWrite` says. -/
theorem after_decodeWrite (s : State) (a : Addr) (d : Word) :
    after (decodeWrite a d) s = (busWrite s a d).2.setResp (some (busWrite s a d).1) := by
  obtain ⟨p, rfl, hw⟩ | ⟨c, rfl, hw⟩ | ⟨rfl, hw⟩ | ⟨hro, hw⟩ := decodeWrite_cases a d <;> rw [hw]
  · fin_cases p <;> rfl
  · fin_cases c <;> rfl
  · rfl
  · rw [busWrite_not_writable s d hro, after_wrErr]

theorem busRead_setPending (s : State) (a : Addr) (ws : List TxWord) : busRead (s.setPending ws) a = busRead s a := rfl

theorem busWrite_setPending (s : State) (a : Addr) (d : Word) (ws : List TxWord) :
    busWrite (s.setPending ws) a d = ((busWrite s a d).1, (busWrite s a d).2.setPending ws) := by
  simp only [busWrite]
  split_ifs <;> rfl

theorem setPending_setPending (s : State) (ws ws' : List TxWord) :
    (s.setPending ws).setPending ws' = s.setPending ws' := rfl

/-- Settles O20: the words are those of format R and W, and each decodes to the read or write of its address. -/
theorem transactionsFollowTheRegisterMap : Obligations.TransactionsFollowTheRegisterMap := by
  intro s a d ws
  refine ⟨?read, ?write⟩
  case read =>
    change step (s.setPending _) = .next ((s.setPending ws).setResp (some (busRead s a)))
    rw [step_of_decode_ok_eq_after (s.setPending_pending _) (decode_readWord rfl), setPending_setPending,
      after_decodeRead, busRead_setPending]
  case write =>
    change step (s.setPending _) =
      .next (((busWrite s a d).2.setPending ws).setResp (some (busWrite s a d).1))
    rw [step_of_decode_ok_eq_after (s.setPending_pending _) (decode_writeWord rfl d), setPending_setPending,
      after_decodeWrite, busWrite_setPending]

end Sys2Proof.Machine

namespace Sys2Proof.Machine

/-! ### No operation reads the words not yet presented -/

theorem pwmClock_setPending (s : State) (ws : List TxWord) :
    pwmClock (s.setPending ws) = (pwmClock s).setPending ws := by
  obtain ⟨h, e⟩ | ⟨h0, h, e⟩ | ⟨h0, h, e⟩ := pwmClock_cases s <;> rw [e]
  · exact pwmClock_overflow _ h
  · exact pwmClock_compare _ h0 h
  · exact pwmClock_plain _ h0 h

theorem frcClock_setPending (s : State) (ws : List TxWord) :
    frcClock (s.setPending ws) = (frcClock s).setPending ws := by
  by_cases h : s.frc = 0xFFFF#16
  · rw [frcClock_wrap s h]
    exact frcClock_wrap _ h
  · rw [frcClock_count s h]
    exact frcClock_count _ h

theorem lineEvent_setPending (ch v : Lines) (now : Word) (s : State) (i : Line) (ws : List TxWord) :
    lineEvent ch v now (s.setPending ws) i = (lineEvent ch v now s i).setPending ws := by
  simp only [lineEvent]
  split_ifs <;> rfl

theorem edgeEvent_setPending (v : Lines) (s : State) (ws : List TxWord) :
    edgeEvent v (s.setPending ws) = (edgeEvent v s).setPending ws := by
  simp only [edgeEvent, List.foldl, State.setPending_lvl, State.setPending_frc, lineEvent_setPending]
  rfl

/-- An operation does the same whatever words are still to come, and keeps them. -/
theorem after_setPending (i : Instr) (s : State) (ws : List TxWord) :
    after i (s.setPending ws) = (after i s).setPending ws := by
  cases i with
  | evPclk => rw [after_evPclk, pwmClock_setPending]; rfl
  | evFrcclk => rw [after_evFrcclk, frcClock_setPending]; rfl
  | evEdge v => rw [after_evEdge, edgeEvent_setPending]; rfl
  | _ => rfl

/-! ### Runs of operations -/

theorem afterAll_append (l m : List Instr) (s : State) : afterAll (l ++ m) s = afterAll m (afterAll l s) := by
  induction l generalizing s with
  | nil => rfl
  | cons i l ih => exact ih (after i s)

theorem afterAll_setPending (l : List Instr) (s : State) (ws : List TxWord) :
    afterAll l (s.setPending ws) = (afterAll l s).setPending ws := by
  induction l generalizing s with
  | nil => rfl
  | cons i l ih => rw [afterAll, after_setPending, ih, afterAll]

/-- What holds at the start and is kept by every operation of a run holds at its end. -/
theorem afterAll_keeps (P : State → Prop) {l : List Instr} {s : State} (hs : P s)
    (hstep : ∀ i ∈ l, ∀ s, P s → P (after i s)) : P (afterAll l s) := by
  induction l generalizing s with
  | nil => exact hs
  | cons i l ih =>
    exact ih (hstep i List.mem_cons_self s hs) fun j hj => hstep j (List.mem_cons_of_mem i hj)

/-- A machine that takes each word of a list as its operation runs the words as the operations. -/
theorem run_words (M : Host.Core) (φ : State → M.State) (l : List Instr) (n : Nat) (s : State) (ws : List TxWord)
    (hstep : ∀ i ∈ l, ∀ s ws, M.step (φ (s.setPending (encode i :: ws))) = .next (φ ((after i s).setPending ws))) :
    M.run (l.length + n) (φ (s.setPending (l.map encode ++ ws))) = M.run n (φ ((afterAll l s).setPending ws)) := by
  induction l generalizing s with
  | nil => rw [List.length_nil, Nat.zero_add]; rfl
  | cons i l ih =>
    rw [List.length_cons, Nat.add_right_comm, List.map_cons, List.cons_append,
      run_succ_of_next M _ (hstep i List.mem_cons_self s (l.map encode ++ ws)),
      ih _ fun j hj => hstep j (List.mem_cons_of_mem i hj)]
    rfl

theorem step_encode {i : Instr} (hwf : i.wf = true) (s : State) (ws : List TxWord) :
    step (s.setPending (encode i :: ws)) = .next ((after i s).setPending ws) := by
  rw [step_of_decode_ok_eq_after (s.setPending_pending _) (decodeOfEncodeIsTheOperation i hwf), setPending_setPending,
    after_setPending]

theorem hostStep_encode {i : Instr} (hwf : i.wf = true) (s : State) (ws : List TxWord) :
    hostStep (s.setPending (encode i :: ws)) = hostExec i (s.setPending ws) :=
  hostStep_cons (s.setPending_pending _) (decodeOfEncodeIsTheOperation i hwf)

/-- Settles O22: each word of the schedule is one step of the block. -/
theorem runningTheWordsOfAScheduleRunsItsOperations : Obligations.RunningTheWordsOfAScheduleRunsItsOperations := by
  intro l s rest hwf
  have hrun := run_words Sys2Proof.core (fun s => s) l 0 s rest fun i hi s ws => step_encode (hwf i hi) s ws
  exact hrun.trans (congrArg _ (afterAll_setPending l s rest).symm)

/-- Settles O25: an idle step finds no word, every other step takes the first. -/
theorem noStepChangesReload : Obligations.NoStepChangesReload := by
  intro s t h
  obtain ⟨hp, rfl⟩ | ⟨w, ws, i, hp, -, rfl⟩ := step_next_cases h
  · exact ⟨rfl, by rw [State.setResp_pending, hp]; rfl⟩
  · rw [after_reload, after_pending, hp]
    exact ⟨rfl, rfl⟩

/-! ### Responses -/

/-- A host transaction is answered, an event is not (R29). -/
theorem after_resp_isSome (i : Instr) (s : State) : (after i s).resp.isSome = i.isHost := by
  cases i <;> rfl

theorem answersErr_eq_false_iff {i : Instr} :
    i.answersErr = false ↔ ∀ a : Addr, i ≠ .rdUnmapped a ∧ ∀ d : Word, i ≠ .wrErr a d := by
  cases i <;> simp [Instr.answersErr]

/-- A host program completes an operation exactly if it is answered no ERR. -/
theorem hostExec_completes_iff {i : Instr} {s : State} : (∃ t, hostExec i s = .next t) ↔ i.answersErr = false := by
  cases herr : i.answersErr
  · simp [hostExec_of_not_err herr]
  · simp [hostExec_of_err herr]

/-- Settles O21: the response stands in the state the operation leaves. -/
theorem onlyErrorTransactionsAnswerErr : Obligations.OnlyErrorTransactionsAnswerErr := by
  intro s w ws i hp hd
  refine ⟨?safe, fun t ht => ?answered⟩
  case safe => rw [safeStep_iff, hostStep_cons hp hd, hostExec_completes_iff, answersErr_eq_false_iff]
  case answered =>
    rw [step_of_decode_ok hp hd] at ht
    rw [eq_after_of_exec ht, after_resp_isSome]

/-- Settles O2: each read is the read of its register. -/
theorem statusReadsAnswerTheRegister : Obligations.StatusReadsAnswerTheRegister :=
  fun s => ⟨exec_eq_next_after s .rdOut, exec_eq_next_after s .rdPlane, exec_eq_next_after s .rdPcnt,
    exec_eq_next_after s .rdPocr, exec_eq_next_after s .rdFrc, exec_eq_next_after s .rdReload,
    exec_eq_next_after s .rdLvl, fun i => exec_eq_next_after s (.rdStart i)⟩

/-- Settles O6: an error transaction sets the response alone. -/
theorem errorTransactionsChangeNothing : Obligations.ErrorTransactionsChangeNothing :=
  fun s a d => ⟨exec_eq_next_after s (.rdUnmapped a), exec_eq_next_after s (.wrErr a d)⟩

/-- Settles O11: nothing of the old state is left but RELOAD, which is that of the reset state, and the words to come. -/
theorem powerOnAndEvResetHaveTheSameEffect : Obligations.PowerOnAndEvResetHaveTheSameEffect := by
  intro s h
  rw [exec_eq_next_after, after_evReset, resetBlock, h]
  rfl

/-! ### Host programs -/

/-- Settles O44, operation by operation and for the two ways a script presents one. -/
theorem anErrIsAFaultOfTheHostProgram : Obligations.AnErrIsAFaultOfTheHostProgram := by
  intro s
  refine ⟨fun i => hostExec_of_err, fun i => hostExec_of_not_err, fun i env herr => ?script, fun why h => ?refused⟩
  case script =>
    exact ⟨fun k => Script.run_emit_of_err herr k env, fun k => Script.run_ask_of_err herr k env⟩
  case refused => rw [hostStep, h, hostSees]

theorem hostCore_step_encode {i : Instr} (hwf : i.wf = true) (herr : i.answersErr = false) (s : State)
    (ws : List TxWord) : hostCore.step (s.setPending (encode i :: ws)) = .next ((after i s).setPending ws) := by
  change hostStep _ = _
  rw [hostStep_encode hwf, hostExec_of_not_err herr, after_setPending]
  rfl

/-- A host program runs the words of operations that are answered no ERR as the block does. -/
theorem hostCore_run_words {l : List Instr} (h : ∀ i ∈ l, i.wf = true ∧ i.answersErr = false) (n : Nat) (s : State)
    (ws : List TxWord) :
    hostCore.run (l.length + n) (s.setPending (l.map encode ++ ws)) = hostCore.run n ((afterAll l s).setPending ws) :=
  run_words hostCore (fun s => s) l n s ws fun i hi s ws => hostCore_step_encode (h i hi).1 (h i hi).2 s ws

/-- Settles O45: the operations before the error transaction run as the block's, and the step at it is a fault. -/
theorem aHostProgramStopsAtItsFirstErrForGood : Obligations.AHostProgramStopsAtItsFirstErrForGood := by
  intro l i s rest n hl hwf herr
  have hfault : hostStep ((afterAll l s).setPending (encode i :: rest)) =
      .fault (.errResponse (after i (afterAll l (s.setPending rest)))) := by
    rw [hostStep_encode hwf, hostExec_of_err herr, afterAll_setPending]
  change hostCore.run (l.length + 1 + n) (s.setPending (l.map encode ++ encode i :: rest)) = _
  rw [Nat.add_assoc, hostCore_run_words hl, Nat.add_comm 1 n]
  exact run_succ_of_fault hostCore n hfault

/-- A run that a host program completes is the block's own run. -/
theorem core_run_of_hostCore_run (n : Nat) (s t : State) (h : hostCore.run n s = .next t) :
    Sys2Proof.core.run n s = .next t := by
  induction n generalizing s with
  | zero =>
    obtain rfl := Host.Outcome.next.inj h
    rfl
  | succ n ih =>
    cases hs : hostStep s with
    | next u =>
      rw [run_succ_of_next hostCore n hs] at h
      obtain ⟨hstep, -⟩ := hostSees_eq_next_iff.mp hs
      exact (run_succ_of_next Sys2Proof.core n hstep).trans (ih u h)
    | fault f =>
      rw [run_succ_of_fault hostCore n hs] at h
      cases h
    | refused r =>
      rw [run_succ_of_refused hostCore n hs] at h
      cases h

/-- Settles O46: a schedule without an error transaction is run to its end; one with an error transaction faults at the
first. -/
theorem safeRunsAreTheRunsWithoutAnErr : Obligations.SafeRunsAreTheRunsWithoutAnErr := by
  refine ⟨fun l s rest hwf => ?schedule, core_run_of_hostCore_run⟩
  cases hfind : l.find? Instr.answersErr with
  | none =>
    have hsafe : ∀ i ∈ l, i.answersErr = false := by simpa using List.find?_eq_none.mp hfind
    exact iff_of_true ⟨_, hostCore_run_words (fun i hi => ⟨hwf i hi, hsafe i hi⟩) 0 s rest⟩ hsafe
  | some i =>
    obtain ⟨herr, pre, post, rfl, hpre⟩ := List.find?_eq_some_iff_append.mp hfind
    have hi : i ∈ pre ++ i :: post := by simp
    refine iff_of_false ?_ fun hsafe => by simp [hsafe i hi] at herr
    rintro ⟨t, ht⟩
    have hfault := aHostProgramStopsAtItsFirstErrForGood pre i s (post.map encode ++ rest) post.length
      (fun j hj => ⟨hwf j (by simp [hj]), by simpa using hpre j hj⟩) (hwf i hi) herr
    have hlen : (pre ++ i :: post).length = pre.length + 1 + post.length := by simp; omega
    rw [hlen, List.map_append, List.map_cons, List.append_assoc, List.cons_append, hfault] at ht
    cases ht

/-! ### The pseudo-operation consume (R57) -/

theorem flagMask_getLsbD (i j : Line) : (1#16 <<< i.val).getLsbD j = decide (j = i) := by
  revert i j
  decide

theorem zext16_getLsbD {n : Nat} (v : BitVec n) {k : Nat} (hk : k < 16) : (zext16 v).getLsbD k = v.getLsbD k := by
  simp [zext16, hk]

/-- Settles O43: the two cases of the flag that RD_PEND returns. -/
theorem consumeTakesThePendingSample : Obligations.ConsumeTakesThePendingSample := by
  intro s i
  have hread : (respData (after .rdPend s)).getLsbD i = s.pend.getLsbD i := zext16_getLsbD s.pend (by omega)
  simp only [Pseudo.expand, Script.run_ask_of_not_err (i := .rdPend) rfl, List.headD_nil, afterAll, hread]
  cases hpend : s.pend.getLsbD i with
  | false =>
    refine ⟨none, after .rdPend s, rfl, rfl, fun j => ?_, rfl⟩
    change s.pend.getLsbD j = _
    by_cases hj : j = i
    · rw [hj, hpend, Bool.false_and]
    · rw [decide_eq_true hj, Bool.and_true]
  | true =>
    refine ⟨some s.dur[i], after (.clrPend (1#16 <<< i.val)) (after (.rdDur i) (after .rdPend s)), ?run, rfl,
      fun j => ?flags, ?frame⟩
    case run => rfl
    case flags => exact (clearPend_getLsbD ..).trans (by rw [flagMask_getLsbD, decide_not]; rfl)
    case frame => simp only [after_clrPend, after_rdDur, after_rdPend, State.setPend, State.setResp]

end Sys2Proof.Machine

namespace Sys2Proof.Machine

/-! ### Plane events (40_pwm.md R58 to R60) -/

section
variable {i : Instr} {s : State}

theorem isOverflow_iff : isOverflow i s = true ↔ i = .evPclk ∧ s.pcnt = 0xFF#8 := by
  simp [isOverflow]

theorem isCompare_iff :
    isCompare i s = true ↔ i = .evPclk ∧ s.pcnt + 1#8 ≠ 0#8 ∧ s.pcnt + 1#8 = s.pocr := by
  simp [isCompare, and_assoc]

theorem after_of_isOverflow (h : isOverflow i s = true) :
    after i s = ((overflowEvent s).setPcnt 0#8).setResp none := by
  obtain ⟨rfl, hmax⟩ := isOverflow_iff.mp h
  rw [after_evPclk, pwmClock_overflow s hmax]

theorem after_of_isCompare (h : isCompare i s = true) :
    after i s = ((compareEvent s).setPcnt (s.pcnt + 1#8)).setResp none := by
  obtain ⟨rfl, h0, hpocr⟩ := isCompare_iff.mp h
  rw [after_evPclk, pwmClock_compare s h0 hpocr]

/-- A PWM clock without a plane event counts, and does nothing else. -/
theorem pwmClock_of_no_plane_event (ho : isOverflow .evPclk s = false) (hc : isCompare .evPclk s = false) :
    s.pcnt + 1#8 ≠ 0#8 ∧ s.pcnt + 1#8 ≠ s.pocr ∧ pwmClock s = s.setPcnt (s.pcnt + 1#8) := by
  obtain ⟨hmax, -⟩ | ⟨h0, hpocr, -⟩ | hplain := pwmClock_cases s
  · rw [isOverflow_iff.mpr ⟨rfl, hmax⟩] at ho
    cases ho
  · rw [isCompare_iff.mpr ⟨rfl, h0, hpocr⟩] at hc
    cases hc
  · exact hplain

/-- OUT, POCR and PLANE change only at plane events and reset. -/
theorem after_of_no_plane_event (ho : isOverflow i s = false) (hc : isCompare i s = false) (hr : i ≠ .evReset) :
    (after i s).out = s.out ∧ (after i s).pocr = s.pocr ∧ (after i s).plane = s.plane := by
  by_cases hi : i = .evPclk
  · subst hi
    obtain ⟨-, -, hplain⟩ := pwmClock_of_no_plane_event ho hc
    rw [after_evPclk, hplain]
    exact ⟨rfl, rfl, rfl⟩
  · obtain ⟨hout, -, hpocr, hplane⟩ := after_pwm_of_ne (s := s) hi hr
    exact ⟨hout, hpocr, hplane⟩

/-- An overflow and a compare exclude reset, and one of four things is the case of every operation. -/
theorem plane_event_cases (i : Instr) (s : State) :
    isOverflow i s = true ∨ isCompare i s = true ∨ i = .evReset ∨
      (isOverflow i s = false ∧ isCompare i s = false ∧ i ≠ .evReset) := by
  cases isOverflow i s
  · cases isCompare i s
    · by_cases hr : i = .evReset
      · exact .inr (.inr (.inl hr))
      · exact .inr (.inr (.inr ⟨rfl, rfl, hr⟩))
    · exact .inr (.inl rfl)
  · exact .inl rfl

/-- PCNT counts the PWM clocks, modulo 2^8. -/
theorem after_pcnt (hr : i ≠ .evReset) : (after i s).pcnt = s.pcnt + if i = .evPclk then 1#8 else 0#8 := by
  by_cases hi : i = .evPclk
  · rw [if_pos hi, hi, after_evPclk]
    exact pwmClock_pcnt s
  · obtain ⟨-, hpcnt, -⟩ := after_pwm_of_ne (s := s) hi hr
    rw [hpcnt, if_neg hi, BitVec.add_zero]

end

/-- Settles O26: OUT after each kind of plane event, after reset and after all else. -/
theorem outChangesOnlyAtPlaneEvents : Obligations.OutChangesOnlyAtPlaneEvents := by
  intro i s t h
  obtain rfl := eq_after_of_exec h
  refine ⟨fun ho => ?overflow, fun hc => ?compare, fun hr => ?reset, fun ho hc hr => ?other⟩
  case overflow => rw [after_of_isOverflow ho]; exact outLines_eq _
  case compare => rw [after_of_isCompare hc]; exact outLines_eq _
  case reset => rw [hr, after_evReset]; rfl
  case other => exact (after_of_no_plane_event ho hc hr).1

/-- Settles O27: PCNT by the clock, POCR and PLANE by the absence of a plane event. -/
theorem pwmRegistersHaveTheStatedWriters : Obligations.PwmRegistersHaveTheStatedWriters := by
  intro i s t h hr
  obtain rfl := eq_after_of_exec h
  refine ⟨fun p hp => after_bp_of_ne p hp hr, fun hi => ?count, fun ho hc => ?event⟩
  case count => rw [after_pcnt hr, if_neg hi, BitVec.add_zero]
  case event => exact (after_of_no_plane_event ho hc hr).2

/-- Settles O28: a counter gains one at a tick and nothing else. -/
theorem tickRegistersHaveTheStatedWriters : Obligations.TickRegistersHaveTheStatedWriters := by
  intro i s t h hr
  obtain rfl := eq_after_of_exec h
  refine ⟨fun c htick hsub => ?tick, fun hi => after_frc_of_ne hi hr⟩
  case tick => rw [after_tick c hsub hr, htick]; exact BitVec.add_zero _

/-! ### The invariants (10_state.md R20, 40_pwm.md R61) -/

/-- The compare value while plane `p` is the next: `2^p`, and 0 where no compare is due (R61 (1)). -/
def weightOf (p : BitVec 3) : BitVec 8 := if p = 0#3 then 0#8 else BitVec.ofNat 8 (2 ^ p.toNat)

theorem nextWeight_eq : ∀ p : BitVec 3, nextWeight p = weightOf (p + 1#3) := by decide

theorem pocr_eq_weightOf_iff (q : BitVec 8) (p : BitVec 3) :
    q = weightOf p ↔ (p ≠ 0#3 → q.toNat = 2 ^ p.toNat) ∧ (p = 0#3 → q = 0#8) := by
  by_cases hp : p = 0#3
  · simp [weightOf, hp]
  · have hpow : ∀ p : BitVec 3, (BitVec.ofNat 8 (2 ^ p.toNat)).toNat = 2 ^ p.toNat := by decide
    rw [weightOf, if_neg hp, ← BitVec.toNat_inj, hpow]
    exact ⟨fun h => ⟨fun _ => h, fun h0 => absurd h0 hp⟩, fun h => h.1 hp⟩

theorem pwmInv_iff {s : State} : s.PwmInv ↔ s.pocr = weightOf s.plane ∧ s.plane = planeAt s.pcnt := by
  rw [pocr_eq_weightOf_iff]
  exact ⟨fun h => ⟨⟨h.pocr_of_plane, h.pocr_of_plane_zero⟩, h.plane_of_count⟩,
    fun ⟨⟨hne, h0⟩, hplane⟩ => ⟨hne, h0, hplane⟩⟩

/-- PLANE advances where the count reaches the compare value. -/
theorem planeAt_succ_of_eq : ∀ n : BitVec 8, n + 1#8 ≠ 0#8 → n + 1#8 = weightOf (planeAt n) →
    planeAt (n + 1#8) = planeAt n + 1#3 := by
  decide

/-- PLANE stays elsewhere. -/
theorem planeAt_succ_of_ne : ∀ n : BitVec 8, n + 1#8 ≠ 0#8 → n + 1#8 ≠ weightOf (planeAt n) →
    planeAt (n + 1#8) = planeAt n := by
  decide

theorem after_keeps_pwmInv {i : Instr} {s : State} (h : s.PwmInv) : (after i s).PwmInv := by
  obtain ⟨hpocr, hplane⟩ := pwmInv_iff.mp h
  rw [pwmInv_iff]
  obtain ho | hc | rfl | ⟨ho, hc, hr⟩ := plane_event_cases i s
  · rw [after_of_isOverflow ho]
    exact ⟨rfl, rfl⟩
  · obtain ⟨-, h0, heq⟩ := isCompare_iff.mp hc
    rw [after_of_isCompare hc]
    refine ⟨nextWeight_eq s.plane, ?_⟩
    change s.plane + 1#3 = planeAt (s.pcnt + 1#8)
    rw [planeAt_succ_of_eq _ h0 (by rw [heq, hpocr, hplane]), hplane]
  · exact ⟨rfl, rfl⟩
  · obtain ⟨-, hpocr', hplane'⟩ := after_of_no_plane_event ho hc hr
    rw [hpocr', hplane', after_pcnt hr]
    refine ⟨hpocr, ?_⟩
    by_cases hi : i = .evPclk
    · subst hi
      obtain ⟨h0, hne, -⟩ := pwmClock_of_no_plane_event ho hc
      rw [if_pos rfl, planeAt_succ_of_ne _ h0 (by rwa [← hplane, ← hpocr]), hplane]
    · rw [if_neg hi, BitVec.add_zero, hplane]

theorem after_keeps_frcInv {i : Instr} {s : State} (h : s.FrcInv) : (after i s).FrcInv := by
  by_cases hi : i = .evFrcclk
  · rw [hi]
    exact frcClock_keeps_frcInv h
  by_cases hr : i = .evReset
  · rw [hr]
    exact BitVec.le_refl s.reload
  · rwa [State.FrcInv, after_reload, after_frc_of_ne hi hr]

theorem after_keeps_inv {i : Instr} {s : State} (h : s.Inv) : (after i s).Inv :=
  ⟨after_keeps_pwmInv h.pwm, after_keeps_frcInv h.frc⟩

/-- The invariants speak of registers only, not of the words to come or the response. -/
theorem inv_setPending {s : State} (h : s.Inv) (ws : List TxWord) : (s.setPending ws).Inv :=
  have hpwm := pwmInv_iff.mp h.pwm
  ⟨pwmInv_iff.mpr hpwm, h.frc⟩

theorem inv_setResp {s : State} (h : s.Inv) (r : Option BusResponse) : (s.setResp r).Inv :=
  have hpwm := pwmInv_iff.mp h.pwm
  ⟨pwmInv_iff.mpr hpwm, h.frc⟩

/-- Settles O24: an idle step changes no register, and every operation keeps the invariants. -/
theorem everyStepKeepsTheInvariants : Obligations.EveryStepKeepsTheInvariants := by
  intro s t hinv h
  obtain ⟨-, rfl⟩ | ⟨w, ws, i, -, -, rfl⟩ := step_next_cases h
  · exact inv_setResp hinv none
  · exact after_keeps_inv (inv_setPending hinv ws)

/-- Settles O23: PCNT is 0, plane 1 is due at count 2, and FRC is FRC_RELOAD. -/
theorem resetStateMeetsTheInvariants : Obligations.ResetStateMeetsTheInvariants :=
  ⟨pwmInv_iff.mpr ⟨rfl, rfl⟩, BitVec.le_refl _⟩

/-! ### The pending flags (10_state.md R24) -/

/-- A falling edge sets a flag, a CLR_PEND clears it, and nothing else but reset touches it. -/
theorem after_pend_cases (i : Instr) (s : State) (j : Line) (hr : i ≠ .evReset) :
    (∃ v, i = .evEdge v ∧ (after i s).pend.getLsbD j = (s.pend.getLsbD j || falls j v s)) ∨
    (∃ d, i = .clrPend d ∧ (after i s).pend.getLsbD j = (s.pend.getLsbD j && !d.getLsbD j)) ∨
    (after i s).pend = s.pend := by
  cases i with
  | evEdge v => exact .inl ⟨v, rfl, edgeEvent_pend v s j⟩
  | clrPend d => exact .inr (.inl ⟨d, rfl, clearPend_getLsbD s.pend d j⟩)
  | evReset => exact absurd rfl hr
  | evPclk => exact .inr (.inr (pwmClock_pend s))
  | evFrcclk => exact .inr (.inr (frcClock_pend s))
  | _ => exact .inr (.inr rfl)

/-- START of a line changes only where the line rises. -/
theorem after_start_of_no_rise {i : Instr} {s : State} {j : Line} (hr : i ≠ .evReset)
    (h : ∀ v, i = .evEdge v → rises j v s = false) : (after i s).start[j] = s.start[j] := by
  by_cases hi : ∃ v, i = .evEdge v
  · obtain ⟨v, rfl⟩ := hi
    have hno : ¬ (v.getLsbD j = true ∧ s.lvl.getLsbD j = false) :=
      fun hrise => Bool.eq_false_iff.mp (h v rfl) (rises_eq_true_iff.mpr hrise)
    exact (edgeEvent_start v s j).trans (if_neg hno)
  · obtain ⟨-, hstart, -⟩ := after_capture_of_ne (s := s) (fun v e => hi ⟨v, e⟩) hr
    rw [hstart]

/-- DUR of a line changes only where the line falls. -/
theorem after_dur_of_no_fall {i : Instr} {s : State} {j : Line} (hr : i ≠ .evReset)
    (h : ∀ v, i = .evEdge v → falls j v s = false) : (after i s).dur[j] = s.dur[j] := by
  by_cases hi : ∃ v, i = .evEdge v
  · obtain ⟨v, rfl⟩ := hi
    have hno : ¬ (v.getLsbD j = false ∧ s.lvl.getLsbD j = true) :=
      fun hfall => Bool.eq_false_iff.mp (h v rfl) (falls_eq_true_iff.mpr hfall)
    exact (edgeEvent_dur v s j).trans (if_neg hno)
  · obtain ⟨-, -, hdur⟩ := after_capture_of_ne (s := s) (fun v e => hi ⟨v, e⟩) hr
    rw [hdur]

/-- Settles O29: START by the absence of a rise, DUR by that of a fall, PEND by its two writers. -/
theorem captureRegistersHaveTheStatedWriters : Obligations.CaptureRegistersHaveTheStatedWriters := by
  intro i s t h hr
  obtain rfl := eq_after_of_exec h
  refine ⟨fun hi => (after_capture_of_ne hi hr).1, fun j => after_start_of_no_rise hr, fun j => after_dur_of_no_fall hr,
    fun j hold hnew => ?sets, fun j hold hnew => ?clears⟩
  case sets =>
    obtain ⟨v, rfl, hv⟩ | ⟨d, rfl, hd⟩ | hkeep := after_pend_cases i s j hr
    · exact ⟨v, rfl, by rwa [hv, hold, Bool.false_or] at hnew⟩
    · rw [hd, hold, Bool.false_and] at hnew
      cases hnew
    · rw [hkeep, hold] at hnew
      cases hnew
  case clears =>
    obtain ⟨v, rfl, hv⟩ | ⟨d, rfl, hd⟩ | hkeep := after_pend_cases i s j hr
    · rw [hv, hold, Bool.true_or] at hnew
      cases hnew
    · exact ⟨d, rfl, by rwa [hd, hold, Bool.true_and, Bool.not_eq_false'] at hnew⟩
    · rw [hkeep, hold] at hnew
      cases hnew

/-- Settles O42: the fall posts, and the clear reaches the flag alone. -/
theorem lateClearLosesTheNewerSample : Obligations.LateClearLosesTheNewerSample := by
  intro s i v d hfall hd
  obtain ⟨-, hdur, hpend⟩ := edgeEvent_of_falls (s := s.setResp (some ⟨.ok, some s.dur[i]⟩)) hfall
  refine ⟨rfl, hdur, hpend, (clearPend_getLsbD ..).trans ?cleared, rfl⟩
  case cleared => rw [hd, Bool.not_true, Bool.and_false]

/-! ### Isolation of the PWM unit and the timing units (40_pwm.md R64) -/

/-- Two states whose PWM registers agree. -/
structure PwmAgree (s u : State) : Prop where
  bp : s.bp = u.bp
  out : s.out = u.out
  pcnt : s.pcnt = u.pcnt
  pocr : s.pocr = u.pocr
  plane : s.plane = u.plane

/-- Two states whose tick and capture registers and RELOAD agree. -/
structure TimingAgree (s u : State) : Prop where
  tick : s.tick = u.tick
  frc : s.frc = u.frc
  lvl : s.lvl = u.lvl
  start : s.start = u.start
  dur : s.dur = u.dur
  pend : s.pend = u.pend
  reload : s.reload = u.reload

section
variable {s u : State}

theorem pwmAgree_pwmClock (h : PwmAgree s u) : PwmAgree (pwmClock s) (pwmClock u) := by
  obtain ⟨bp, out, pcnt, pocr, plane⟩ := h
  obtain ⟨hs, e⟩ | ⟨h0, hs, e⟩ | ⟨h0, hs, e⟩ := pwmClock_cases s <;> rw [e]
  · rw [pwmClock_overflow u (by rwa [← pcnt])]
    exact ⟨bp, by simp [overflowEvent, bp], rfl, rfl, rfl⟩
  · rw [pwmClock_compare u (by rwa [← pcnt]) (by rwa [← pcnt, ← pocr]), ← pcnt]
    exact ⟨bp, by simp [compareEvent, bp, plane], rfl, by simp [compareEvent, plane], by simp [compareEvent, plane]⟩
  · rw [pwmClock_plain u (by rwa [← pcnt]) (by rwa [← pcnt, ← pocr]), ← pcnt]
    exact ⟨bp, out, rfl, pocr, plane⟩

theorem pwmAgree_after (i : Instr) (h : PwmAgree s u) : PwmAgree (after i s) (after i u) := by
  obtain ⟨bp, out, pcnt, pocr, plane⟩ := h
  cases i with
  | evPclk =>
    obtain ⟨bp, out, pcnt, pocr, plane⟩ := pwmAgree_pwmClock ⟨bp, out, pcnt, pocr, plane⟩
    exact ⟨bp, out, pcnt, pocr, plane⟩
  | wrBp p d => exact ⟨by simp [bp], out, pcnt, pocr, plane⟩
  | evReset => exact ⟨rfl, rfl, rfl, rfl, rfl⟩
  | evFrcclk => constructor <;> simp [bp, out, pcnt, pocr, plane]
  | evEdge v => constructor <;> simp [bp, out, pcnt, pocr, plane]
  | _ => exact ⟨bp, out, pcnt, pocr, plane⟩

theorem timingAgree_frcClock (h : TimingAgree s u) : TimingAgree (frcClock s) (frcClock u) := by
  obtain ⟨tick, frc, lvl, start, dur, pend, reload⟩ := h
  by_cases hs : s.frc = 0xFFFF#16
  · rw [frcClock_wrap s hs, frcClock_wrap u (by rwa [← frc])]
    exact ⟨by simp [tickAll, tick], reload, lvl, start, dur, pend, reload⟩
  · rw [frcClock_count s hs, frcClock_count u (by rwa [← frc])]
    exact ⟨tick, by simp [frc], lvl, start, dur, pend, reload⟩

theorem timingAgree_edgeEvent (v : Lines) (h : TimingAgree s u) : TimingAgree (edgeEvent v s) (edgeEvent v u) := by
  obtain ⟨tick, frc, lvl, start, dur, pend, reload⟩ := h
  have hstart (j : Line) : (edgeEvent v s).start[j] = (edgeEvent v u).start[j] := by
    simp only [edgeEvent_start, lvl, frc, start]
  have hdur (j : Line) : (edgeEvent v s).dur[j] = (edgeEvent v u).dur[j] := by
    simp only [edgeEvent_dur, lvl, frc, start, dur, reload]
  have hpend (j : Line) : (edgeEvent v s).pend.getLsbD j = (edgeEvent v u).pend.getLsbD j := by
    simp only [edgeEvent_pend, lvl, pend]
  exact ⟨by simp [tick], by simp [frc], rfl, Vector.ext fun j hj => hstart ⟨j, hj⟩, Vector.ext fun j hj => hdur ⟨j, hj⟩,
    lines_ext hpend, by simp [reload]⟩

theorem timingAgree_after (i : Instr) (h : TimingAgree s u) : TimingAgree (after i s) (after i u) := by
  obtain ⟨tick, frc, lvl, start, dur, pend, reload⟩ := h
  cases i with
  | evFrcclk =>
    obtain ⟨tick, frc, lvl, start, dur, pend, reload⟩ := timingAgree_frcClock ⟨tick, frc, lvl, start, dur, pend, reload⟩
    exact ⟨tick, frc, lvl, start, dur, pend, reload⟩
  | evEdge v =>
    obtain ⟨tick, frc, lvl, start, dur, pend, reload⟩ := timingAgree_edgeEvent v ⟨tick, frc, lvl, start, dur, pend, reload⟩
    exact ⟨tick, frc, lvl, start, dur, pend, reload⟩
  | subTick c d => exact ⟨by simp [tick], frc, lvl, start, dur, pend, reload⟩
  | clrPend d => exact ⟨tick, frc, lvl, start, dur, by simp [pend], reload⟩
  | evReset => exact ⟨rfl, reload, rfl, rfl, rfl, rfl, reload⟩
  | evPclk => constructor <;> simp [tick, frc, lvl, start, dur, pend, reload]
  | _ => exact ⟨tick, frc, lvl, start, dur, pend, reload⟩

/-- A relation of states that every operation keeps is kept by every run. -/
theorem afterAll_keeps_relation (R : State → State → Prop) (hstep : ∀ i s u, R s u → R (after i s) (after i u))
    (l : List Instr) (h : R s u) : R (afterAll l s) (afterAll l u) := by
  induction l generalizing s u with
  | nil => exact h
  | cons i l ih => exact ih (hstep i s u h)

end

/-- Settles O30: agreement in one unit's registers is kept by every operation. -/
theorem pwmAndTimingUnitsAreIsolated : Obligations.PwmAndTimingUnitsAreIsolated := by
  intro l s u
  refine ⟨fun bp out pcnt pocr plane => ?pwm, fun tick frc lvl start dur pend reload => ?timing⟩
  case pwm =>
    obtain ⟨bp, out, pcnt, pocr, plane⟩ :=
      afterAll_keeps_relation PwmAgree (fun i _ _ => pwmAgree_after i) l ⟨bp, out, pcnt, pocr, plane⟩
    exact ⟨bp, out, pcnt, pocr, plane⟩
  case timing =>
    obtain ⟨tick, frc, lvl, start, dur, pend, -⟩ :=
      afterAll_keeps_relation TimingAgree (fun i _ _ => timingAgree_after i) l
        ⟨tick, frc, lvl, start, dur, pend, reload⟩
    exact ⟨tick, frc, lvl, start, dur, pend⟩

/-! ### Repeated transactions (20_memory.md R36) -/

theorem clearPend_clearPend (p : Lines) (d : Word) : clearPend (clearPend p d) d = clearPend p d := by
  simp [clearPend, BitVec.and_assoc]

/-- Settles O31: reads and error transactions change no register, and the two other writes put the same again. -/
theorem hostTransactionsButSubTickAreIdempotent : Obligations.HostTransactionsButSubTickAreIdempotent := by
  intro s
  refine ⟨fun i hhost hsub => ?idempotent, fun c d => ?subTick⟩
  case idempotent =>
    cases i with
    | wrBp p d => simp [State.setBp, State.setResp]
    | clrPend d => simp [State.setPend, State.setResp, clearPend_clearPend]
    | subTick c d => exact absurd rfl (hsub c d)
    | evPclk | evFrcclk | evEdge | evReset => cases hhost
    | _ => rfl
  case subTick =>
    have htick (s : State) : (after (.subTick c d) s).tick[c] = satSub s.tick[c] d := Vector.getElem_set_self ..
    rw [htick, htick, satSub_toNat, satSub_toNat]

/-! ### The output lines before the first plane write (70_reset_and_hazards.md R109) -/

/-- All planes and all output lines are low. -/
def AllLow (s : State) : Prop := (∀ p : PlaneIdx, s.bp[p] = 0#8) ∧ s.out = 0#7

theorem after_keeps_allLow {i : Instr} {s : State} (hi : ∀ p d, i ≠ .wrBp p d) (h : AllLow s) : AllLow (after i s) := by
  obtain ⟨hbp, hout⟩ := h
  by_cases hr : i = .evReset
  · subst hr
    exact ⟨fun p => by simp, rfl⟩
  refine ⟨fun p => by rw [after_bp_of_ne p (hi p) hr, hbp], ?_⟩
  obtain ho | hc | hr' | ⟨ho, hc, -⟩ := plane_event_cases i s
  · rw [after_of_isOverflow ho]
    exact congrArg outLines (hbp 0)
  · rw [after_of_isCompare hc]
    exact congrArg outLines (hbp (planeIndex s.plane))
  · exact absurd hr' hr
  · rw [(after_of_no_plane_event ho hc hr).1, hout]

/-- Settles O38: that all planes and lines are low is kept by every operation but a plane write. -/
theorem outputsStayLowUntilAPlaneIsWritten : Obligations.OutputsStayLowUntilAPlaneIsWritten := by
  intro l hl
  have hreset : AllLow State.reset := ⟨fun p => by simp [State.reset], rfl⟩
  exact (afterAll_keeps AllLow hreset fun i hi s => after_keeps_allLow (hl i hi)).2

end Sys2Proof.Machine

namespace Sys2Proof.Machine

/-! ### Ticks of a run (41_tick.md R74, R77) -/

section
variable {i : Instr} {s : State}

theorem isTick_iff : isTick i s = true ↔ i = .evFrcclk ∧ s.frc = 0xFFFF#16 := by
  simp [isTick]

/-- `FRC - FRC_RELOAD`, the clocks since the counter was last loaded. -/
def phase (s : State) : Nat := s.frc.toNat - s.reload.toNat

/-- An FRC clock that wraps is a tick and ends the period; another clock is one more of it. -/
theorem phase_after_evFrcclk (h : s.FrcInv) :
    (isTick .evFrcclk s = true ∧ phase s + 1 = wrapPeriod s.reload ∧ phase (after .evFrcclk s) = 0) ∨
    (isTick .evFrcclk s = false ∧ phase s + 1 < wrapPeriod s.reload ∧ phase (after .evFrcclk s) = phase s + 1) := by
  have hle : s.reload.toNat ≤ s.frc.toNat := h
  have hfrc := s.frc.isLt
  have hnext : (after .evFrcclk s).frc = if s.frc = 0xFFFF#16 then s.reload else s.frc + 1#16 := frcClock_frc s
  rw [phase, phase, after_reload, hnext, wrapPeriod]
  by_cases hmax : s.frc = 0xFFFF#16
  · refine .inl ⟨isTick_iff.mpr ⟨rfl, hmax⟩, ?_, by rw [if_pos hmax, Nat.sub_self]⟩
    rw [hmax] at hle ⊢
    change _ ≤ 65535 at hle
    change 65535 - _ + 1 = _
    omega
  · have hlt : s.frc.toNat < 65535 := by bv_omega
    have hsucc : (s.frc + 1#16).toNat = s.frc.toNat + 1 := by bv_omega
    refine .inr ⟨Bool.eq_false_iff.mpr fun ht => hmax (isTick_iff.mp ht).2, by omega, ?_⟩
    rw [if_neg hmax, hsucc]
    omega

/-- Every other operation is no tick and leaves the phase. -/
theorem phase_after_of_ne (hi : i ≠ .evFrcclk) (hr : i ≠ .evReset) :
    isTick i s = false ∧ phase (after i s) = phase s := by
  refine ⟨Bool.eq_false_iff.mpr fun ht => hi (isTick_iff.mp ht).1, ?_⟩
  rw [phase, after_reload, after_frc_of_ne hi hr, phase]

theorem phase_lt_wrapPeriod (h : s.FrcInv) : phase s < wrapPeriod s.reload := by
  have hle : s.reload.toNat ≤ s.frc.toNat := h
  have hfrc := s.frc.isLt
  rw [phase, wrapPeriod]
  omega

end

theorem afterAll_reload (l : List Instr) (s : State) : (afterAll l s).reload = s.reload :=
  afterAll_keeps (fun t => t.reload = s.reload) rfl fun _ _ _ ht => after_reload.trans ht

theorem afterAll_keeps_frcInv (l : List Instr) {s : State} (h : s.FrcInv) : (afterAll l s).FrcInv :=
  afterAll_keeps State.FrcInv h fun _ _ _ => after_keeps_frcInv

/-- `N` FRC clocks from phase `q` bring the quotient of `q + N` by the wrap period as ticks, and the remainder as phase. -/
theorem ticksIn_and_phase (l : List Instr) {s : State} (h : s.FrcInv) (hr : ∀ i ∈ l, i ≠ .evReset) :
    ticksIn l s = (phase s + l.count .evFrcclk) / wrapPeriod s.reload ∧
    phase (afterAll l s) = (phase s + l.count .evFrcclk) % wrapPeriod s.reload := by
  induction l generalizing s with
  | nil =>
    have hlt := phase_lt_wrapPeriod h
    exact ⟨(Nat.div_eq_of_lt hlt).symm, (Nat.mod_eq_of_lt hlt).symm⟩
  | cons i l ih =>
    obtain ⟨hticks, hphase⟩ := ih (after_keeps_frcInv h) fun j hj => hr j (List.mem_cons_of_mem i hj)
    rw [after_reload] at hticks hphase
    rw [ticksIn, afterAll, hticks, hphase]
    by_cases hi : i = .evFrcclk
    · subst hi
      rw [List.count_cons_self]
      obtain ⟨ht, hend, hq⟩ | ⟨ht, -, hq⟩ := phase_after_evFrcclk h
      · have hsum : phase s + (l.count .evFrcclk + 1) = l.count .evFrcclk + wrapPeriod s.reload := by omega
        have hpos : 0 < wrapPeriod s.reload := by omega
        rw [ht, hq, hsum, Nat.zero_add, Nat.add_div_right _ hpos, Nat.add_mod_right]
        exact ⟨Nat.add_comm .., rfl⟩
      · rw [ht, hq, Nat.add_right_comm, Nat.add_assoc]
        exact ⟨Nat.zero_add _, rfl⟩
    · obtain ⟨ht, hq⟩ := phase_after_of_ne (s := s) hi (hr i List.mem_cons_self)
      rw [ht, hq, List.count_cons_of_ne (by simpa using hi)]
      exact ⟨Nat.zero_add _, rfl⟩

/-- Settles O32: FRC is FRC_RELOAD and the phase. -/
theorem oneTickInEveryWrapPeriod : Obligations.OneTickInEveryWrapPeriod := by
  intro l s h hr
  obtain ⟨hticks, hphase⟩ := ticksIn_and_phase l h hr
  have hle : (afterAll l s).reload.toNat ≤ (afterAll l s).frc.toNat := afterAll_keeps_frcInv l h
  refine ⟨hticks, ?_⟩
  rw [phase, afterAll_reload] at hphase
  rw [afterAll_reload] at hle
  rw [← phase, ← hphase]
  omega

/-- A counter that is not subtracted from gains the number of ticks (modulo 2^16, the addition of words). -/
theorem afterAll_tick (l : List Instr) (s : State) (c : Channel)
    (h : ∀ i ∈ l, i ≠ .evReset ∧ ∀ d, i ≠ .subTick c d) :
    (afterAll l s).tick[c] = s.tick[c] + BitVec.ofNat 16 (ticksIn l s) := by
  induction l generalizing s with
  | nil => exact (BitVec.add_zero _).symm
  | cons i l ih =>
    obtain ⟨hr, hsub⟩ := h i List.mem_cons_self
    rw [afterAll, ih _ fun j hj => h j (List.mem_cons_of_mem i hj), after_tick c hsub hr, ticksIn, BitVec.ofNat_add,
      ← BitVec.add_assoc]
    cases isTick i s <;> rfl

/-- Settles O33: two such counters gain the same. -/
theorem tickCountersGainOnePerTick : Obligations.TickCountersGainOnePerTick := by
  intro l s c h
  refine ⟨?gain, fun e he => ?difference⟩
  case gain => rw [afterAll_tick l s c h, BitVec.toNat_add, BitVec.toNat_ofNat, Nat.add_mod_mod]
  case difference =>
    rw [afterAll_tick l s c h, afterAll_tick l s e fun i hi => ⟨(h i hi).1, he i hi⟩]
    exact add_sub_add_right_eq_sub ..

/-- Settles O34: the counter gained `k` since the read, which returned it. -/
theorem readThenSubtractLosesNoTick : Obligations.ReadThenSubtractLosesNoTick := by
  intro s c d t mid hresp hle hmid hsum
  have hread : s.tick[c] = t := by simpa [peek] using hresp
  have hgain := afterAll_tick mid (after (.rdTick c) s) c hmid
  have hsub (s : State) : (after (.subTick c d) s).tick[c] = satSub s.tick[c] d := Vector.getElem_set_self ..
  have hstart : (after (.rdTick c) s).tick[c] = t := hread
  rw [hsub, satSub_toNat, hgain, hstart, BitVec.toNat_add, BitVec.toNat_ofNat, Nat.add_mod_mod, Nat.mod_eq_of_lt hsum]

/-! ### Fair runs (70_reset_and_hazards.md R118) -/

section
variable {w : Nat} {f : State → BitVec w} {e : Instr} {sched : Nat → Instr} {s : State}

/-- A register that only the clock `e` moves is at the next such clock what it is now. -/
theorem exists_next_clock (hfair : ∀ n, ∃ m, n ≤ m ∧ sched m = e)
    (hkeep : ∀ n, sched n ≠ e → f (stateAt sched s (n + 1)) = f (stateAt sched s n)) (n : Nat) :
    ∃ m, n ≤ m ∧ sched m = e ∧ f (stateAt sched s m) = f (stateAt sched s n) := by
  obtain ⟨m, hle, hm⟩ := hfair n
  obtain ⟨k, rfl⟩ := Nat.exists_eq_add_of_le hle
  clear hle
  induction k generalizing n with
  | zero => exact ⟨n, Nat.le_refl n, hm, rfl⟩
  | succ k ih =>
    by_cases hn : sched n = e
    · exact ⟨n, Nat.le_refl n, hn, rfl⟩
    · obtain ⟨m, hle, hclock, hsame⟩ := ih (n + 1) (by rwa [Nat.add_right_comm])
      exact ⟨m, Nat.le_of_succ_le hle, hclock, hsame.trans (hkeep n hn)⟩

/-- A counter that only the clock `e` moves, by one up to its last value, is at its last value at one of the clocks to
come, in a schedule that has such clocks again and again. -/
theorem exists_clock_at_max (hfair : ∀ n, ∃ m, n ≤ m ∧ sched m = e)
    (hkeep : ∀ n, sched n ≠ e → f (stateAt sched s (n + 1)) = f (stateAt sched s n))
    (hcount : ∀ n, sched n = e → f (stateAt sched s n) ≠ BitVec.allOnes w →
      f (stateAt sched s (n + 1)) = f (stateAt sched s n) + 1#w) (n : Nat) :
    ∃ m, n ≤ m ∧ sched m = e ∧ f (stateAt sched s m) = BitVec.allOnes w := by
  induction hd : 2 ^ w - 1 - (f (stateAt sched s n)).toNat using Nat.strong_induction_on generalizing n with
  | _ d ih =>
    obtain ⟨m, hle, hm, hsame⟩ := exists_next_clock hfair hkeep n
    by_cases hmax : f (stateAt sched s m) = BitVec.allOnes w
    · exact ⟨m, hle, hm, hmax⟩
    · have hlt : (f (stateAt sched s m)).toNat < 2 ^ w - 1 := by
        have hne : (f (stateAt sched s m)).toNat ≠ 2 ^ w - 1 := fun h =>
          hmax (BitVec.eq_of_toNat_eq (by rw [h, BitVec.toNat_allOnes]))
        have := (f (stateAt sched s m)).isLt
        omega
      have hnext : (f (stateAt sched s (m + 1))).toNat = (f (stateAt sched s m)).toNat + 1 := by
        rw [hcount m hm hmax, BitVec.toNat_add_of_lt] <;> rw [BitVec.toNat_ofNat, Nat.mod_eq_of_lt] <;> omega
      rw [← hsame] at hd
      obtain ⟨k, hk, hclock⟩ := ih _ (by omega) (m + 1) rfl
      exact ⟨k, by omega, hclock⟩

end

/-- Settles O35: FRC is moved by the FRC clock alone, PCNT by the PWM clock alone, and each counts up to its last value. -/
theorem fairRunsTickAndOverflowForever : Obligations.FairRunsTickAndOverflowForever := by
  intro sched s hfair hr n
  refine ⟨?tick, ?overflow⟩
  case tick =>
    obtain ⟨m, hle, hm, hmax⟩ := exists_clock_at_max (f := State.frc) (s := s) hfair.2
      (fun n hn => after_frc_of_ne hn (hr n))
      (fun n hn hmax => by
        rw [stateAt, hn, after_evFrcclk, State.setResp_frc, frcClock_frc]
        exact if_neg hmax) n
    exact ⟨m, hle, isTick_iff.mpr ⟨hm, hmax⟩⟩
  case overflow =>
    obtain ⟨m, hle, hm, hmax⟩ := exists_clock_at_max (f := State.pcnt) (s := s) hfair.1
      (fun n hn => by rw [stateAt, after_pcnt (hr n), if_neg hn, BitVec.add_zero])
      (fun n hn _ => by rw [stateAt, after_pcnt (hr n), if_pos hn]) n
    exact ⟨m, hle, isOverflow_iff.mpr ⟨hm, hmax⟩⟩

/-! ### Pulses (42_capture.md R83, R86) -/

/-- A run of operations that neither reset nor present a level of line `i` that is inactive (R83). -/
def KeepsActive (i : Line) (l : List Instr) : Prop :=
  ∀ j ∈ l, j ≠ .evReset ∧ ∀ u, j = .evEdge u → u.getLsbD i = true

/-- An active line stays active, and keeps its time stamp, while no operation resets it or ends its pulse. -/
theorem after_of_active {i : Line} {j : Instr} {s : State} (hr : j ≠ .evReset)
    (hj : ∀ u, j = .evEdge u → u.getLsbD i = true) (hs : s.lvl.getLsbD i = true) :
    (after j s).lvl.getLsbD i = true ∧ (after j s).start[i] = s.start[i] := by
  constructor
  · by_cases he : ∃ u, j = .evEdge u
    · obtain ⟨u, rfl⟩ := he
      exact hj u rfl
    · obtain ⟨hlvl, -⟩ := after_capture_of_ne (s := s) (fun u e => he ⟨u, e⟩) hr
      rw [hlvl, hs]
  · refine after_start_of_no_rise hr fun v _ => ?_
    rw [rises, hs, Bool.not_true, Bool.and_false]

theorem afterAll_of_active {i : Line} {l : List Instr} {s : State} (hl : KeepsActive i l)
    (hs : s.lvl.getLsbD i = true) :
    (afterAll l s).lvl.getLsbD i = true ∧ (afterAll l s).start[i] = s.start[i] := by
  refine afterAll_keeps (fun t => t.lvl.getLsbD i = true ∧ t.start[i] = s.start[i]) ⟨hs, rfl⟩ fun j hj t ⟨hlvl, hst⟩ => ?_
  obtain ⟨hr, hedge⟩ := hl j hj
  obtain ⟨hlvl', hst'⟩ := after_of_active hr hedge hlvl
  exact ⟨hlvl', hst'.trans hst⟩

/-- Going on from phase `q` by `n` and back by `q` is going on by `n`, modulo the period. -/
theorem phase_difference {w q : Nat} (n : Nat) (hq : q < w) : (w + (q + n) % w - q) % w = n % w := by
  have hdiv := Nat.div_add_mod (q + n) w
  calc
    (w + (q + n) % w - q) % w = (w + (q + n) % w - q + w * ((q + n) / w)) % w := (Nat.add_mul_mod_self_left ..).symm
    _ = (n + w) % w := by congr 1; omega
    _ = n % w := Nat.add_mod_right ..

/-- A line whose time stamp is now, then active for `n` FRC clocks, then falling, posts `n` modulo the wrap period. -/
theorem fall_posts_clocks {s : State} {i : Line} {mid : List Instr} {v : Lines} (hinv : s.FrcInv)
    (hactive : s.lvl.getLsbD i = true) (hstart : s.start[i] = s.frc) (hmid : KeepsActive i mid)
    (hv : v.getLsbD i = false) :
    (edgeEvent v (afterAll mid s)).dur[i].toNat = mid.count .evFrcclk % wrapPeriod s.reload ∧
      (edgeEvent v (afterAll mid s)).pend.getLsbD i = true := by
  obtain ⟨hstill, hstamp⟩ := afterAll_of_active hmid hactive
  obtain ⟨-, hdur, hpend⟩ := edgeEvent_of_falls (falls_eq_true_iff.mpr ⟨hv, hstill⟩)
  obtain ⟨-, hphase⟩ := ticksIn_and_phase mid hinv fun j hj => (hmid j hj).1
  have hnow : s.reload ≤ (afterAll mid s).frc := by
    rw [← afterAll_reload mid s]
    exact afterAll_keeps_frcInv mid hinv
  rw [phase, afterAll_reload] at hphase
  refine ⟨?_, hpend⟩
  rw [hdur, hstamp, hstart, afterAll_reload, elapsed_of_phases _ _ _ hinv hnow, hphase]
  exact phase_difference _ (phase_lt_wrapPeriod hinv)

/-- Settles O40: the rise takes the time stamp, and the fall posts the clocks since. -/
theorem pulseIsMeasuredModuloTheWrapPeriod : Obligations.PulseIsMeasuredModuloTheWrapPeriod := by
  intro s i v v' mid hinv hrise hmid hv'
  obtain ⟨hv, -⟩ := rises_eq_true_iff.mp hrise
  obtain ⟨hstamp, -, -⟩ := edgeEvent_of_rises hrise
  have hstart : (after (.evEdge v) s).start[i] = (after (.evEdge v) s).frc := hstamp.trans (edgeEvent_frc v s).symm
  have hposted := fall_posts_clocks (after_keeps_frcInv (i := .evEdge v) hinv) hv hstart hmid hv'
  rwa [after_reload] at hposted

/-- A line active at the end of a run from inactive lines rose in it and is active since, with the time stamp of the
rise in START. -/
def RoseAndStayed (i : Line) (l : List Instr) (s : State) : Prop :=
  ∃ (pre : List Instr) (v : Lines) (post : List Instr),
    l = pre ++ .evEdge v :: post ∧ rises i v (afterAll pre s) = true ∧ KeepsActive i post ∧
    (afterAll l s).start[i] = (afterAll pre s).frc

theorem afterAll_concat (l : List Instr) (j : Instr) (s : State) : afterAll (l ++ [j]) s = after j (afterAll l s) :=
  afterAll_append l [j] s

/-- One more operation that neither resets the line nor ends its pulse. -/
theorem roseAndStayed_concat {i : Line} {l : List Instr} {s : State} {j : Instr} (h : RoseAndStayed i l s)
    (hr : j ≠ .evReset) (hj : ∀ u, j = .evEdge u → u.getLsbD i = true) (hactive : (afterAll l s).lvl.getLsbD i = true) :
    RoseAndStayed i (l ++ [j]) s := by
  obtain ⟨pre, v, post, hl, hrise, hpost, hstart⟩ := h
  refine ⟨pre, v, post ++ [j], by simp [hl], hrise, fun k hk => ?_, ?_⟩
  · obtain hk | hk := List.mem_append.mp hk
    · exact hpost k hk
    · rw [List.mem_singleton.mp hk]
      exact ⟨hr, hj⟩
  · rw [afterAll_concat, (after_of_active hr hj hactive).2, hstart]

theorem roseAndStayed_of_active (i : Line) (l : List Instr) (s : State) (h0 : s.lvl = 0#3)
    (hactive : (afterAll l s).lvl.getLsbD i = true) : RoseAndStayed i l s := by
  induction l using List.reverseRecOn with
  | nil => simp [afterAll, h0] at hactive
  | append_singleton l j ih =>
    rw [afterAll_concat] at hactive
    have hr : j ≠ .evReset := by
      rintro rfl
      simp at hactive
    by_cases hedge : ∃ v, j = .evEdge v
    · obtain ⟨v, rfl⟩ := hedge
      have hv : v.getLsbD i = true := hactive
      cases hwas : (afterAll l s).lvl.getLsbD i with
      | true => exact roseAndStayed_concat (ih hwas) hr (fun u e => by cases e; exact hv) hwas
      | false =>
        have hrise : rises i v (afterAll l s) = true := rises_eq_true_iff.mpr ⟨hv, hwas⟩
        refine ⟨l, v, [], rfl, hrise, (fun _ hk => nomatch hk), ?_⟩
        rw [afterAll_concat]
        exact (edgeEvent_of_rises hrise).1
    · have hno : ∀ u, j ≠ .evEdge u := fun u e => hedge ⟨u, e⟩
      obtain ⟨hlvl, -⟩ := after_capture_of_ne (s := afterAll l s) hno hr
      rw [hlvl] at hactive
      exact roseAndStayed_concat (ih hactive) hr (fun u e => absurd e (hno u)) hactive

/-- Settles O41, by induction on the run from its end. -/
theorem startIsDefinedWheneverALineIsActive : Obligations.StartIsDefinedWheneverALineIsActive :=
  fun l s i => roseAndStayed_of_active i l s

end Sys2Proof.Machine

namespace Sys2Proof.Machine

/-! ### One PWM cycle (40_pwm.md R62, R63) -/

/-- The output lines while plane `p` is shown (R15). -/
def planeLines (bp : Vector Byte 8) (p : PlaneIdx) : BitVec 7 := outLines bp[p]

/-- OUT shows the plane before the one the next compare event outputs. -/
def ShowsPlane (s : State) : Prop := s.out = planeLines s.bp (planeIndex (s.plane - 1#3))

theorem overflowEvent_showsPlane {i : Instr} {s : State} (h : isOverflow i s = true) : ShowsPlane (after i s) := by
  have hprev : planeIndex (1#3 - 1#3) = 0 := by decide
  rw [after_of_isOverflow h]
  change planeLines s.bp 0 = planeLines s.bp (planeIndex (1#3 - 1#3))
  rw [hprev]

theorem compareEvent_showsPlane {i : Instr} {s : State} (h : isCompare i s = true) : ShowsPlane (after i s) := by
  have hprev : s.plane + 1#3 - 1#3 = s.plane := BitVec.add_sub_cancel ..
  rw [after_of_isCompare h]
  change planeLines s.bp (planeIndex s.plane) = planeLines s.bp (planeIndex (s.plane + 1#3 - 1#3))
  rw [hprev]

/-- The plane before PLANE is the one the table of R62 gives for the count. -/
theorem planeIndex_planeAt : ∀ n : BitVec 8, planeIndex (planeAt n - 1#3) = planeShown n.toNat := by
  decide

theorem out_of_showsPlane {s : State} (hinv : s.PwmInv) (h : ShowsPlane s) :
    s.out = planeLines s.bp (planeShown s.pcnt.toNat) := by
  rw [h, hinv.plane_of_count, planeIndex_planeAt]

/-- A run of operations that neither reset nor write a plane (R62, R63). -/
def KeepsPlanes (l : List Instr) : Prop := ∀ i ∈ l, i ≠ .evReset ∧ ∀ p d, i ≠ .wrBp p d

theorem after_bp {i : Instr} {s : State} (hr : i ≠ .evReset) (hw : ∀ p d, i ≠ .wrBp p d) : (after i s).bp = s.bp :=
  Vector.ext fun p hp => after_bp_of_ne ⟨p, hp⟩ (hw ⟨p, hp⟩) hr

theorem after_keeps_showsPlane {i : Instr} {s : State} (hr : i ≠ .evReset) (hw : ∀ p d, i ≠ .wrBp p d)
    (h : ShowsPlane s) : ShowsPlane (after i s) := by
  obtain ho | hc | hr' | ⟨ho, hc, -⟩ := plane_event_cases i s
  · exact overflowEvent_showsPlane ho
  · exact compareEvent_showsPlane hc
  · exact absurd hr' hr
  · obtain ⟨hout, -, hplane⟩ := after_of_no_plane_event ho hc hr
    rwa [ShowsPlane, hout, hplane, after_bp hr hw]

theorem afterAll_bp {l : List Instr} (hl : KeepsPlanes l) (s : State) : (afterAll l s).bp = s.bp :=
  afterAll_keeps (fun t => t.bp = s.bp) rfl fun i hi _ ht => (after_bp (hl i hi).1 (hl i hi).2).trans ht

theorem afterAll_keeps_inv (l : List Instr) {s : State} (h : s.Inv) : (afterAll l s).Inv :=
  afterAll_keeps State.Inv h fun _ _ _ => after_keeps_inv

theorem afterAll_pcnt {l : List Instr} (hr : ∀ i ∈ l, i ≠ .evReset) (s : State) :
    (afterAll l s).pcnt = s.pcnt + BitVec.ofNat 8 (l.count .evPclk) := by
  induction l generalizing s with
  | nil => exact (BitVec.add_zero _).symm
  | cons i l ih =>
    rw [afterAll, ih (fun j hj => hr j (List.mem_cons_of_mem i hj)), after_pcnt (hr i List.mem_cons_self)]
    by_cases hi : i = .evPclk
    · rw [if_pos hi, hi, List.count_cons_self, BitVec.add_assoc, Nat.add_comm, BitVec.ofNat_add]
    · rw [if_neg hi, BitVec.add_zero, List.count_cons_of_ne (by simpa using hi)]

/-- From the end of a cycle, the first PWM clock shows plane 0, and OUT shows the plane of the count from then on. -/
theorem afterAll_showsPlane {l : List Instr} (hl : KeepsPlanes l) {s : State} (hend : s.pcnt = 0xFF#8)
    (hclock : .evPclk ∈ l) : ShowsPlane (afterAll l s) := by
  induction l generalizing s with
  | nil => cases hclock
  | cons i l ih =>
    obtain ⟨hr, hw⟩ := hl i List.mem_cons_self
    have hl' : KeepsPlanes l := fun j hj => hl j (List.mem_cons_of_mem i hj)
    by_cases hi : i = .evPclk
    · have hshows : ShowsPlane (after i s) := overflowEvent_showsPlane (isOverflow_iff.mpr ⟨hi, hend⟩)
      rw [afterAll]
      exact afterAll_keeps ShowsPlane hshows fun j hj _ => after_keeps_showsPlane (hl' j hj).1 (hl' j hj).2
    · have hend' : (after i s).pcnt = 0xFF#8 := by rw [after_pcnt hr, if_neg hi, BitVec.add_zero, hend]
      exact ih hl' hend' ((List.mem_cons.mp hclock).resolve_left (Ne.symm hi))

/-- Settles O36: OUT shows the plane of the count, which is `k`. -/
theorem onePwmCycleShowsThePlanesByWeight : Obligations.OnePwmCycleShowsThePlanesByWeight := by
  intro l s k hinv hend hk hcount hl
  have hpcnt : (afterAll l s).pcnt.toNat = k := by
    rw [afterAll_pcnt (fun i hi => (hl i hi).1), hend, hcount, BitVec.toNat_add, BitVec.toNat_ofNat, BitVec.toNat_ofNat]
    omega
  have hclock : .evPclk ∈ l := List.count_pos_iff.mp (by omega)
  refine ⟨hpcnt, ?_⟩
  rw [out_of_showsPlane (afterAll_keeps_inv l hinv).pwm (afterAll_showsPlane hl hend hclock), hpcnt, afterAll_bp hl]
  exact outLines_eq _

theorem countsHigh_concat (c : Channel) (l : List Instr) (i : Instr) (s : State) :
    countsHigh c (l ++ [i]) s =
      countsHigh c l s + (i == .evPclk && (after i (afterAll l s)).out.getLsbD c).toNat := by
  induction l generalizing s with
  | nil => simp [countsHigh, afterAll]
  | cons j l ih => rw [List.cons_append, countsHigh, ih, countsHigh, afterAll, Nat.add_assoc]

/-- Bit `c` of plane `p`, as a number. -/
def planeBit (bp : Vector Byte 8) (c : Channel) (p : PlaneIdx) : Nat := (bp[p].getLsbD c).toNat

/-- In a part of one cycle line `c` is high at the counts whose plane of the table of R62 has bit `c`. -/
theorem countsHigh_eq_sum (c : Channel) (l : List Instr) {s : State} (hinv : s.Inv) (hend : s.pcnt = 0xFF#8)
    (hcount : l.count .evPclk ≤ 256) (hl : KeepsPlanes l) :
    countsHigh c l s = ∑ k ∈ Finset.range (l.count .evPclk), planeBit s.bp c (planeShown k) := by
  induction l using List.reverseRecOn with
  | nil => rfl
  | append_singleton l i ih =>
    have hl' : KeepsPlanes l := fun j hj => hl j (List.mem_append_left [i] hj)
    rw [List.count_append] at hcount ⊢
    rw [countsHigh_concat, ih (by omega) hl']
    by_cases hi : i = .evPclk
    · subst hi
      have hone : [Instr.evPclk].count .evPclk = 1 := rfl
      rw [hone] at hcount ⊢
      obtain ⟨-, hout⟩ := onePwmCycleShowsThePlanesByWeight (l ++ [Instr.evPclk]) s (l.count .evPclk) hinv hend (by omega)
        (by rw [List.count_append, hone]) hl
      rw [afterAll_concat] at hout
      rw [Finset.sum_range_succ, hout, planeBit]
      simp
    · have hnone : [i].count .evPclk = 0 := List.count_eq_zero.mpr (by simpa using Ne.symm hi)
      rw [hnone]
      simp [hi]

/-- The first count of a cycle at which plane `p` is shown (the table of R62). -/
def firstCount (p : Nat) : Nat := if p = 0 then 0 else 2 ^ p

theorem planeShown_interval {k : Nat} (hk : k < 256) :
    firstCount (planeShown k).val ≤ k ∧ k < 2 ^ ((planeShown k).val + 1) := by
  unfold planeShown firstCount
  split_ifs <;> simp <;> omega

theorem le_of_firstCount_le {p q k : Nat} (hp : firstCount p ≤ k) (hq : k < 2 ^ (q + 1)) : p ≤ q := by
  by_contra hlt
  have hpow : 2 ^ (q + 1) ≤ 2 ^ p := Nat.pow_le_pow_right (by decide) (by omega)
  rw [firstCount, if_neg (by omega)] at hp
  omega

/-- Plane `p` is shown from its first count up to the next power of two (the table of R62). -/
theorem planeShown_eq_iff {k : Nat} (hk : k < 256) (p : PlaneIdx) :
    planeShown k = p ↔ firstCount p.val ≤ k ∧ k < 2 ^ (p.val + 1) := by
  obtain ⟨hlow, hhigh⟩ := planeShown_interval hk
  constructor
  · rintro rfl
    exact ⟨hlow, hhigh⟩
  · rintro ⟨hp, hq⟩
    exact Fin.ext (Nat.le_antisymm (le_of_firstCount_le hlow hq) (le_of_firstCount_le hp hhigh))

/-- The number of counts of a cycle at which plane `p` is shown: its weight, and one more for plane 0 (R62). -/
theorem card_planeShown (p : PlaneIdx) :
    ((Finset.range 256).filter fun k => planeShown k = p).card = 2 ^ p.val + if p = 0 then 1 else 0 := by
  have hle : 2 ^ (p.val + 1) ≤ 2 ^ 8 := Nat.pow_le_pow_right (by decide) p.isLt
  have hcounts : ((Finset.range 256).filter fun k => planeShown k = p) =
      Finset.Ico (firstCount p.val) (2 ^ (p.val + 1)) := by
    ext k
    rw [Finset.mem_filter, Finset.mem_range, Finset.mem_Ico]
    constructor
    · rintro ⟨hk, h⟩
      exact (planeShown_eq_iff hk p).mp h
    · intro h
      have hk : k < 256 := by omega
      exact ⟨hk, (planeShown_eq_iff hk p).mpr h⟩
  rw [hcounts, Nat.card_Ico, Nat.pow_succ, firstCount]
  by_cases hp : p = 0
  · rw [hp]
    rfl
  · have hval : p.val ≠ 0 := fun h => hp (Fin.ext h)
    rw [if_neg hp, if_neg hval]
    omega

/-- Settles O37: the counts of a cycle, sorted by the plane shown. -/
theorem dutyOfALineIsItsBrightness : Obligations.DutyOfALineIsItsBrightness := by
  intro l s c hinv hend hcount hl
  have hbrightness : brightness s.bp c = ∑ p : PlaneIdx, planeBit s.bp c p * 2 ^ p.val := rfl
  have hfirst : ∑ p : PlaneIdx, planeBit s.bp c p * (if p = 0 then 1 else 0) = planeBit s.bp c 0 := by simp
  calc
    countsHigh c l s = ∑ k ∈ Finset.range 256, planeBit s.bp c (planeShown k) := by
      rw [countsHigh_eq_sum c l hinv hend hcount.le hl, hcount]
    _ = ∑ p : PlaneIdx, ∑ k ∈ (Finset.range 256).filter (fun k => planeShown k = p), planeBit s.bp c (planeShown k) :=
      (Finset.sum_fiberwise ..).symm
    _ = ∑ p : PlaneIdx, (2 ^ p.val + if p = 0 then 1 else 0) * planeBit s.bp c p := by
      refine Finset.sum_congr rfl fun p _ => ?_
      rw [← card_planeShown p, ← smul_eq_mul]
      exact Finset.sum_eq_card_nsmul fun k hk => by rw [(Finset.mem_filter.mp hk).2]
    _ = brightness s.bp c + planeBit s.bp c 0 := by
      simp only [Nat.mul_comm _ (planeBit s.bp c _), Nat.mul_add, Finset.sum_add_distrib, hfirst, hbrightness]

/-! ### The pseudo-operation wrchan (30_encoding.md R57, 70_reset_and_hazards.md R111) -/

/-- The word that a write of `wrchan` presents: bit `c` replaced, the others those that were read. -/
theorem withBit_getLsbD (x : Word) (c : Channel) (b : Byte) (p : PlaneIdx) (k : Fin 8) :
    (withBit x c b p).getLsbD k = if k.val = c.val then b.getLsbD p else x.getLsbD k := by
  have hmask : ∀ (c : Channel) (k : Fin 8), (1#16 <<< c.val).getLsbD k = decide (k.val = c.val) := by decide
  have hk : k.val < 16 := by omega
  have hbit : (if b.getLsbD p then 1#16 <<< c.val else 0#16).getLsbD k = (b.getLsbD p && decide (k.val = c.val)) := by
    cases b.getLsbD p
    · exact BitVec.getLsbD_zero
    · exact hmask c k
  rw [withBit, BitVec.getLsbD_or, BitVec.getLsbD_and, BitVec.getLsbD_not, hmask, hbit, decide_eq_true hk]
  by_cases hkc : k.val = c.val
  · rw [if_pos hkc, decide_eq_true hkc]
    simp
  · rw [if_neg hkc, decide_eq_false hkc]
    simp

theorem planeData_getLsbD (d : Word) (k : Fin 8) : (planeData d).getLsbD k = d.getLsbD k := by
  simp [planeData]

theorem afterAll_running_bp {l : List Instr} (hl : ∀ i ∈ l, i.isRunning = true) (s : State) :
    (afterAll l s).bp = s.bp := by
  refine afterAll_bp (fun i hi => ⟨?_, fun p d => ?_⟩) s
  · rintro rfl
    cases hl _ hi
  · rintro rfl
    cases hl _ hi

/-- The planes after one read and write of `wrchan`, whatever the other agents did before each. -/
theorem wrchan_transactions_bp {l₁ l₂ : List Instr} (h₁ : ∀ i ∈ l₁, i.isRunning = true)
    (h₂ : ∀ i ∈ l₂, i.isRunning = true) (c : Channel) (b : Byte) (q : PlaneIdx) (s : State) :
    let r := after (.rdBp q) (afterAll l₁ s)
    let t := after (.wrBp q (withBit (respData r) c b q)) (afterAll l₂ r)
    ∀ (p : PlaneIdx) (k : Fin 8),
      t.bp[p].getLsbD k = if p = q ∧ k.val = c.val then b.getLsbD p else s.bp[p].getLsbD k := by
  intro r t p k
  have hr : r.bp = s.bp := afterAll_running_bp h₁ s
  have ht : t.bp = s.bp.set q.val (planeData (withBit (respData r) c b q)) := by
    change (afterAll l₂ r).bp.set q.val _ q.isLt = _
    rw [afterAll_running_bp h₂, hr]
  have hread : respData r = zext16 s.bp[q] := by
    change zext16 (afterAll l₁ s).bp[q] = _
    rw [afterAll_running_bp h₁]
  rw [ht, hread]
  by_cases hpq : p = q
  · subst hpq
    have hset : (s.bp.set p.val (planeData (withBit (zext16 s.bp[p]) c b p)))[p] =
      planeData (withBit (zext16 s.bp[p]) c b p) := Vector.getElem_set_self ..
    rw [hset, planeData_getLsbD, withBit_getLsbD, zext16_getLsbD _ (by omega)]
    simp
  · have hset : (s.bp.set q.val (planeData (withBit (zext16 s.bp[q]) c b q)))[p] = s.bp[p] :=
      Vector.getElem_set_ne _ _ fun e => hpq (Fin.ext e.symm)
    rw [hset, if_neg fun h => hpq h.1]

theorem headD_running {env : List (List Instr)} (henv : ∀ l ∈ env, ∀ i ∈ l, i.isRunning = true) :
    ∀ i ∈ env.headD [], i.isRunning = true := by
  cases env with
  | nil => simp
  | cons l env => exact henv l List.mem_cons_self

theorem tail_running {env : List (List Instr)} (henv : ∀ l ∈ env, ∀ i ∈ l, i.isRunning = true) :
    ∀ l ∈ env.tail, ∀ i ∈ l, i.isRunning = true :=
  fun l hl => henv l (List.mem_of_mem_tail hl)

/-- The transactions of `wrchan` on a list of planes complete, replace bit `c` of those planes and nothing else. -/
theorem wrchanPlanes_completes (c : Channel) (b : Byte) (ps : List PlaneIdx) (s : State) (env : List (List Instr))
    (henv : ∀ l ∈ env, ∀ i ∈ l, i.isRunning = true) :
    ∃ t : State, (wrchanPlanes c b ps).run env s = .next (none, t) ∧
      ∀ (p : PlaneIdx) (k : Fin 8),
        t.bp[p].getLsbD k = if p ∈ ps ∧ k.val = c.val then b.getLsbD p else s.bp[p].getLsbD k := by
  induction ps generalizing s env with
  | nil => exact ⟨s, rfl, fun p k => by simp⟩
  | cons q ps ih =>
    have henv' := tail_running henv
    have hone := wrchan_transactions_bp (headD_running henv) (headD_running henv') c b q s
    rw [wrchanPlanes, Script.run_ask_of_not_err rfl, Script.run_emit_of_not_err rfl]
    obtain ⟨t, hrun, hbp⟩ := ih _ _ (tail_running henv')
    refine ⟨t, hrun, fun p k => ?_⟩
    rw [hbp, hone, ← ite_or]
    exact if_congr (by rw [← or_and_right, or_comm, ← List.mem_cons]) rfl rfl

/-- Settles O39: the eight planes are all planes. -/
theorem wrchanReplacesOneChannelAndLosesNoBit : Obligations.WrchanReplacesOneChannelAndLosesNoBit := by
  intro c b s env henv
  obtain ⟨t, hrun, hbp⟩ := wrchanPlanes_completes c b [0, 1, 2, 3, 4, 5, 6, 7] s env henv
  have hall : ∀ p : PlaneIdx, p ∈ [0, 1, 2, 3, 4, 5, 6, 7] := by decide
  exact ⟨t, hrun, fun p k => by simpa only [hall p, true_and] using hbp p k⟩

end Sys2Proof.Machine

namespace Sys2Proof.Machine.Asm

/-! ### Tokens of a line (30_encoding.md R56) -/

/-- A character of a word: neither a blank, nor a comma, nor the start of a comment. -/
def isWordChar (c : Char) : Bool := c ≠ ';' && c ≠ ' ' && c ≠ '\t' && c ≠ ','

/-- A word as the tokens hold it, in lower case. -/
def lower (w : List Char) : List Char := w.map Char.toLower

theorem tokens_cons_of_isWordChar {c : Char} (hc : isWordChar c = true) (cur cs : List Char) :
    tokens cur (c :: cs) = tokens (c.toLower :: cur) cs := by
  simp only [isWordChar, Bool.and_eq_true, decide_eq_true_eq] at hc
  obtain ⟨⟨⟨hsemi, hblank⟩, htab⟩, hcomma⟩ := hc
  simp [tokens, hsemi, hblank, htab, hcomma]

theorem tokens_word_append {w : List Char} (hw : w.all isWordChar = true) (cur cs : List Char) :
    tokens cur (w ++ cs) = tokens ((lower w).reverse ++ cur) cs := by
  induction w generalizing cur with
  | nil => rfl
  | cons c w ih =>
    rw [List.all_cons, Bool.and_eq_true] at hw
    rw [List.cons_append, tokens_cons_of_isWordChar hw.1, ih hw.2]
    simp [lower]

theorem flush_reverse {w : List Char} (hne : w ≠ []) (rest : List (List Char)) :
    tokens.flush (lower w).reverse rest = lower w :: rest := by
  simp [tokens.flush, lower, hne]

/-- The last word of a line. -/
theorem tokens_word {w : List Char} (hw : w.all isWordChar = true) (hne : w ≠ []) : tokens [] w = [lower w] := by
  have h := tokens_word_append hw [] []
  rw [List.append_nil, List.append_nil] at h
  exact h.trans (flush_reverse hne [])

/-- A word before a blank. -/
theorem tokens_word_blank {w : List Char} (hw : w.all isWordChar = true) (hne : w ≠ []) (cs : List Char) :
    tokens [] (w ++ ' ' :: cs) = lower w :: tokens [] cs := by
  rw [tokens_word_append hw, List.append_nil]
  exact flush_reverse hne _

/-- A word before a comma. -/
theorem tokens_word_comma {w : List Char} (hw : w.all isWordChar = true) (hne : w ≠ []) (cs : List Char) :
    tokens [] (w ++ ',' :: cs) = lower w :: [','] :: tokens [] cs := by
  rw [tokens_word_append hw, List.append_nil]
  exact flush_reverse hne _

/-! ### Numbers as the disassembler prints them -/

theorem hexDigit_eq_of_mod (n : Nat) : hexDigit n = hexDigit (n % 16) := by
  rw [hexDigit, hexDigit, Nat.mod_mod]

/-- A printed digit is a character of a word in lower case, and reads back as the value modulo 16. -/
theorem hexDigit_spec (n : Nat) :
    isWordChar (hexDigit n) = true ∧ (hexDigit n).toLower = hexDigit n ∧ digitValue 16 (hexDigit n) = some (n % 16) := by
  have hdigits : ∀ m < 16, isWordChar (hexDigit m) = true ∧ (hexDigit m).toLower = hexDigit m ∧
      digitValue 16 (hexDigit m) = some m := by decide
  rw [hexDigit_eq_of_mod n]
  exact hdigits (n % 16) (Nat.mod_lt n (by decide))

theorem number_hexDigit (acc n : Nat) (cs : List Char) :
    number 16 acc (hexDigit n :: cs) = number 16 (acc * 16 + n % 16) cs := by
  obtain ⟨-, -, hvalue⟩ := hexDigit_spec n
  rw [number, hvalue, Option.bind_some]

theorem zero_and_x_isWordChar : isWordChar '0' = true ∧ isWordChar 'x' = true := by decide

theorem parseBits_showWord (d : Word) : parseBits 16 (showWord d) = some d := by
  have hvalue : (((0 * 16 + d.toNat / 4096 % 16) * 16 + d.toNat / 256 % 16) * 16 + d.toNat / 16 % 16) * 16 +
      d.toNat % 16 = d.toNat := by omega
  have hparse : parseNat (showWord d) = some d.toNat := by
    change number 16 0 [_, _, _, _] = _
    rw [number_hexDigit, number_hexDigit, number_hexDigit, number_hexDigit, hvalue, number]
  rw [parseBits, hparse, Option.bind_some, if_pos d.isLt, BitVec.ofNat_toNat, BitVec.setWidth_eq]

theorem parseBits_showByte (a : Addr) : parseBits 8 (showByte a) = some a := by
  have hvalue : (0 * 16 + a.toNat / 16 % 16) * 16 + a.toNat % 16 = a.toNat := by omega
  have hparse : parseNat (showByte a) = some a.toNat := by
    change number 16 0 [_, _] = _
    rw [number_hexDigit, number_hexDigit, hvalue, number]
  rw [parseBits, hparse, Option.bind_some, if_pos a.isLt, BitVec.ofNat_toNat, BitVec.setWidth_eq]

theorem showWord_isWord (d : Word) : (showWord d).all isWordChar = true := by
  simp [showWord, hexDigit_spec, zero_and_x_isWordChar]

theorem lower_showWord (d : Word) : lower (showWord d) = showWord d := by
  simp [showWord, lower, hexDigit_spec]

theorem showByte_isWord (a : Addr) : (showByte a).all isWordChar = true := by
  simp [showByte, hexDigit_spec, zero_and_x_isWordChar]

theorem lower_showByte (a : Addr) : lower (showByte a) = showByte a := by
  simp [showByte, lower, hexDigit_spec]

/-! ### Addresses as the disassembler prints them -/

theorem showReg_spec (r : Reg) :
    (showReg r).all isWordChar = true ∧ showReg r ≠ [] ∧ parseReg (lower (showReg r)) = some r := by
  cases r with
  | bp p => revert p; decide
  | tick c => revert c; decide
  | dur i => revert i; decide
  | start i => revert i; decide
  | _ => decide

theorem showAddr_addr (r : Reg) : showAddr r.addr = showReg r := by
  simp only [showAddr, regAt_addr]

theorem showAddr_of_unmapped {a : Addr} (h : regAt a = none) : showAddr a = showByte a := by
  simp only [showAddr, h]

theorem parseReg_showByte (a : Addr) : parseReg (showByte a) = none := by
  rfl

/-- A printed address is a word, and reads back as the address. -/
theorem showAddr_spec (a : Addr) :
    (showAddr a).all isWordChar = true ∧ showAddr a ≠ [] ∧ parseAddr (lower (showAddr a)) = some a := by
  obtain ⟨r, rfl⟩ | ⟨hnone, -⟩ := addr_cases a
  · rw [showAddr_addr]
    obtain ⟨hword, hne, hparse⟩ := showReg_spec r
    exact ⟨hword, hne, by rw [parseAddr, hparse]⟩
  · rw [showAddr_of_unmapped hnone]
    refine ⟨showByte_isWord a, List.cons_ne_nil _ _, ?_⟩
    rw [parseAddr, lower_showByte, parseReg_showByte]
    exact parseBits_showByte a

theorem showAddr_ne_comma (a : Addr) : lower (showAddr a) ≠ [','] := by
  obtain ⟨-, -, hparse⟩ := showAddr_spec a
  have hcomma : parseAddr [','] = none := by decide
  intro h
  rw [h, hcomma] at hparse
  cases hparse

/-! ### Lines as the disassembler prints them -/

/-- The first words of the transactions (R56). -/
def IsHead (head : List Char) : Prop :=
  head = ['r', 'd'] ∨ head = ['w', 'r'] ∨ head = ['s', 'u', 'b'] ∨ head = ['c', 'l', 'r']

theorem IsHead.spec {head : List Char} (h : IsHead head) :
    head.all isWordChar = true ∧ head ≠ [] ∧ lower head = head ∧
      ∀ rest, assembleTokens (head :: rest) = (operands rest).bind (item head) := by
  obtain rfl | rfl | rfl | rfl := h <;> exact ⟨by decide, by decide, by decide, fun _ => rfl⟩

theorem assemble_addr {head : List Char} (h : IsHead head) (a : Addr) :
    assemble (head ++ ' ' :: showAddr a) = item head [lower (showAddr a)] := by
  obtain ⟨hword, hne, hlower, hassemble⟩ := h.spec
  obtain ⟨haddr, hane, -⟩ := showAddr_spec a
  rw [assemble, tokens_word_blank hword hne, tokens_word haddr hane, hlower, hassemble, operands,
    if_neg (showAddr_ne_comma a)]
  rfl

theorem assemble_addr_data {head : List Char} (h : IsHead head) (a : Addr) (d : Word) :
    assemble (head ++ [' '] ++ showAddr a ++ [',', ' '] ++ showWord d) = item head [lower (showAddr a), showWord d] := by
  obtain ⟨hword, hne, hlower, hassemble⟩ := h.spec
  obtain ⟨haddr, hane, -⟩ := showAddr_spec a
  have hdata : tokens [] (' ' :: showWord d) = [showWord d] :=
    (tokens_word (showWord_isWord d) (List.cons_ne_nil _ _)).trans (congrArg (fun w => [w]) (lower_showWord d))
  have hline : head ++ [' '] ++ showAddr a ++ [',', ' '] ++ showWord d =
      head ++ ' ' :: (showAddr a ++ ',' :: ' ' :: showWord d) := by simp
  rw [assemble, hline, tokens_word_blank hword hne, tokens_word_comma haddr hane, hdata, hlower, hassemble, operands,
    if_neg (showAddr_ne_comma a)]
  rfl

theorem addrData_show (f : Addr → Word → Option Item) (a : Addr) (d : Word) :
    addrData f (lower (showAddr a)) (showWord d) = f a d := by
  obtain ⟨-, -, haddr⟩ := showAddr_spec a
  rw [addrData, haddr, Option.bind_some, parseBits_showWord, Option.bind_some]

theorem disassemble_readOf (r : Reg) : disassemble (readOf r) = showRead r.addr := by
  cases r <;> rfl

theorem assemble_disassemble_decodeRead (a : Addr) :
    assemble (disassemble (decodeRead a)) = some (.op (decodeRead a)) := by
  have htext : disassemble (decodeRead a) = ['r', 'd'] ++ ' ' :: showAddr a := by
    obtain ⟨r, rfl⟩ | ⟨hnone, -⟩ := addr_cases a
    · rw [decodeRead_addr, disassemble_readOf]
      rfl
    · rw [decodeRead_of_unmapped hnone]
      rfl
  obtain ⟨-, -, hparse⟩ := showAddr_spec a
  rw [htext, assemble_addr (.inl rfl)]
  change (parseAddr _).map _ = _
  rw [hparse]
  rfl

theorem assemble_disassemble_decodeWrite (a : Addr) (d : Word) :
    assemble (disassemble (decodeWrite a d)) = some (.op (decodeWrite a d)) := by
  have hwr : IsHead ['w', 'r'] := .inr (.inl rfl)
  have hsub : IsHead ['s', 'u', 'b'] := .inr (.inr (.inl rfl))
  have hclr : IsHead ['c', 'l', 'r'] := .inr (.inr (.inr rfl))
  obtain ⟨p, rfl, hw⟩ | ⟨c, rfl, hw⟩ | ⟨rfl, hw⟩ | ⟨-, hw⟩ := decodeWrite_cases a d
  · rw [hw, disassemble, ← showAddr_addr]
    exact (assemble_addr_data hwr _ d).trans ((addrData_show wrItem _ d).trans (by rw [wrItem, hw]))
  · rw [hw, disassemble, ← showAddr_addr]
    exact (assemble_addr_data hsub _ d).trans ((addrData_show subItem _ d).trans (by rw [subItem, hw]))
  · rw [hw, disassemble, ← showAddr_addr]
    exact (assemble_addr_data hclr _ d).trans ((addrData_show clrItem _ d).trans (by rw [clrItem, hw]))
  · rw [hw, disassemble]
    exact (assemble_addr_data hwr a d).trans ((addrData_show wrItem a d).trans (by rw [wrItem, hw]))

/-- Settles O17: reads and writes print and read back their address, and the events are finitely many lines. -/
theorem assemblingTheDisassemblyGivesTheOperation : Obligations.AssemblingTheDisassemblyGivesTheOperation := by
  intro i hwf
  obtain ⟨a, rfl⟩ | ⟨a, d, rfl⟩ | rfl | rfl | ⟨v, rfl⟩ | rfl := instr_cases hwf
  · exact assemble_disassemble_decodeRead a
  · exact assemble_disassemble_decodeWrite a d
  · decide
  · decide
  · revert v
    decide
  · decide

end Sys2Proof.Machine.Asm
